-- ==== Sys2Proof/Word.lean ====
section
/-! DEFINITION. The word types of the block (00_scope.md R8, R9) and the one way the model builds a
fixed-size array of words. -/

namespace Sys2Proof

/-- A datapath value and a register of the aperture (R8, R22). -/
abbrev Word := BitVec 32

/-- A 64-bit value held as a pair of registers (R8), and a DAG address (R9). -/
abbrev DWord := BitVec 64

/-- One byte of the DAG space (R9). -/
abbrev Byte := BitVec 8

/-- The array whose element `i` is `f i`. -/
def tabulate {α : Type} {n : Nat} (f : Fin n → α) : Vector α n :=
  ⟨⟨List.ofFn f⟩, by simp⟩

end Sys2Proof
end

