-- ==== Sys2Proof/Syntax.lean ====
section
/-! DEFINITION. The commands of the block: one constructor per row of spec/opcode_table.json
(30_encoding.md R92). Only the fields a command uses are arguments (R93, R94, R97). -/

namespace Sys2Proof

/-- A command (R92). `rnd` is the RND field (R93), `arg` the ARG field (R94). -/
inductive Instr where
  /-- NOP (R111). -/
  | nop
  /-- FNV1A (R113). -/
  | fnv1a
  /-- ROTL (R114). -/
  | rotl
  /-- ROTR (R115). -/
  | rotr
  /-- CLZ (R116). -/
  | clz
  /-- POPC (R117). -/
  | popc
  /-- UMULHI (R118). -/
  | umulhi
  /-- RMATH (R120). -/
  | rmath
  /-- RMERGE (R122). -/
  | rmerge
  /-- KISS_SEED (R143). -/
  | kissSeed
  /-- KISS_NEXT (R144). -/
  | kissNext
  /-- KECCAK_F800 (R168). -/
  | keccakF800
  /-- KECCAK_ROUND (R169). -/
  | keccakRound (rnd : BitVec 5)
  /-- SEED_ABSORB (R170). -/
  | seedAbsorb
  /-- SEED_EXTRACT (R171). -/
  | seedExtract
  /-- FINAL_ABSORB (R172). -/
  | finalAbsorb
  /-- DIGEST_EXTRACT (R173). -/
  | digestExtract
  /-- MIX_FILL (R191). -/
  | mixFill
  /-- MIX_REDUCE (R192). -/
  | mixReduce
  /-- LOOP_SEED (R193). -/
  | loopSeed (arg : BitVec 16)
  /-- CACHE_MIX (R194). -/
  | cacheMix
  /-- MATH_MIX (R195). -/
  | mathMix
  /-- DAG_MIX (R196). -/
  | dagMix (arg : BitVec 16)
  /-- MIX_UPDATE (R197). -/
  | mixUpdate
  /-- LOOP_ITER (R198). -/
  | loopIter (arg : BitVec 16)
  /-- FINAL_REDUCE (R199). -/
  | finalReduce
  /-- CACHE_LOAD (R231). -/
  | cacheLoad
  /-- HASH (R233). -/
  | hash
  /-- TARGET_CMP (R235). -/
  | targetCmp
  /-- SEARCH (R236). -/
  | search
  deriving DecidableEq, Repr

end Sys2Proof
end

