-- ==== Sys2Proof/Decode.lean ====
section
/-! DEFINITION. Decoding a command word (30_encoding.md R90 to R97) and, below it, encoding a command. -/

namespace Sys2Proof

/-- Why a command word is illegal (R96). -/
inductive IllegalWord where
  /-- RSV, bits 15:13, is not 000. -/
  | reservedBits (rsv : BitVec 3)
  /-- OP, bits 7:0, is not in the opcode map. -/
  | unassignedOp (op : BitVec 8)
  deriving DecidableEq, Repr

/-- OP, bits 7:0 (R91). -/
def opField (w : Word) : BitVec 8 := w.extractLsb' 0 8

/-- RND, bits 12:8 (R91, R93). -/
def rndField (w : Word) : BitVec 5 := w.extractLsb' 8 5

/-- RSV, bits 15:13 (R91). -/
def rsvField (w : Word) : BitVec 3 := w.extractLsb' 13 3

/-- ARG, bits 31:16 (R91, R94). -/
def argField (w : Word) : BitVec 16 := w.extractLsb' 16 16

/-- The opcode map (R92); RND and ARG are read only by the commands that use them (R97). -/
def decodeOp (op : BitVec 8) (rnd : BitVec 5) (arg : BitVec 16) : Except IllegalWord Instr :=
  match op.toNat with
  | 0x00 => .ok .nop
  | 0x01 => .ok .fnv1a
  | 0x02 => .ok .rotl
  | 0x03 => .ok .rotr
  | 0x04 => .ok .clz
  | 0x05 => .ok .popc
  | 0x06 => .ok .umulhi
  | 0x07 => .ok .rmath
  | 0x08 => .ok .rmerge
  | 0x10 => .ok .kissSeed
  | 0x11 => .ok .kissNext
  | 0x20 => .ok .keccakF800
  | 0x21 => .ok (.keccakRound rnd)
  | 0x22 => .ok .seedAbsorb
  | 0x23 => .ok .seedExtract
  | 0x24 => .ok .finalAbsorb
  | 0x25 => .ok .digestExtract
  | 0x30 => .ok .mixFill
  | 0x31 => .ok .mixReduce
  | 0x32 => .ok (.loopSeed arg)
  | 0x33 => .ok .cacheMix
  | 0x34 => .ok .mathMix
  | 0x35 => .ok (.dagMix arg)
  | 0x36 => .ok .mixUpdate
  | 0x37 => .ok (.loopIter arg)
  | 0x38 => .ok .finalReduce
  | 0x40 => .ok .cacheLoad
  | 0x41 => .ok .hash
  | 0x42 => .ok .targetCmp
  | 0x43 => .ok .search
  | _ => .error (.unassignedOp op)

/-- The command a word stands for, or why it is illegal (R90, R92, R96). -/
def decode (w : Word) : Except IllegalWord Instr :=
  if rsvField w = 0 then decodeOp (opField w) (rndField w) (argField w)
  else .error (.reservedBits (rsvField w))

/-- A command's OP (R92). -/
def Instr.op : Instr → BitVec 8
  | .nop => 0x00
  | .fnv1a => 0x01
  | .rotl => 0x02
  | .rotr => 0x03
  | .clz => 0x04
  | .popc => 0x05
  | .umulhi => 0x06
  | .rmath => 0x07
  | .rmerge => 0x08
  | .kissSeed => 0x10
  | .kissNext => 0x11
  | .keccakF800 => 0x20
  | .keccakRound _ => 0x21
  | .seedAbsorb => 0x22
  | .seedExtract => 0x23
  | .finalAbsorb => 0x24
  | .digestExtract => 0x25
  | .mixFill => 0x30
  | .mixReduce => 0x31
  | .loopSeed _ => 0x32
  | .cacheMix => 0x33
  | .mathMix => 0x34
  | .dagMix _ => 0x35
  | .mixUpdate => 0x36
  | .loopIter _ => 0x37
  | .finalReduce => 0x38
  | .cacheLoad => 0x40
  | .hash => 0x41
  | .targetCmp => 0x42
  | .search => 0x43

/-- A command's RND field; DESIGN CHOICE (log 22), safe: 0 where the command ignores it (R97). -/
def Instr.rnd : Instr → BitVec 5
  | .keccakRound r => r
  | _ => 0

/-- A command's ARG field; DESIGN CHOICE (log 22), safe: 0 where the command ignores it (R97). -/
def Instr.arg : Instr → BitVec 16
  | .loopSeed a => a
  | .dagMix a => a
  | .loopIter a => a
  | _ => 0

/-- The word of a command: ARG, RSV = 000, RND, OP (R91; R99's `OP | RND << 8 | ARG << 16`). -/
def encode (i : Instr) : Word :=
  i.arg ++ 0#3 ++ i.rnd ++ i.op

/-- The command the decoder reads from the `nbits` low bits of `w`, bit 0 the least significant bit of
the command word (R90: one 32-bit word, a number with no byte order of its own, 20_memory.md R63). -/
def decodeTableWord (nbits w : Nat) : Option Instr :=
  match decode (BitVec.ofNat 32 (w % 2 ^ nbits)) with
  | .ok i => some i
  | .error _ => none

end Sys2Proof
end

