-- ==== Sys2Proof/Config.lean ====
section
/-! DEFINITION. The named parameters of 00_scope.md R10 and the free values of the model. The parameters
are plain data that `State` carries unchanged (log 1), so that a statement over all states is one over
every parameter value; the free values are constants without a body (log 4, 5). -/

namespace Sys2Proof

/-- RC_TABLE: which Keccak-f[800] round constants the block holds (R12). -/
inductive RcTable where
  /-- The list the document prints; the default. -/
  | doc
  /-- The standard Keccak-f[800] table. -/
  | std
  deriving DecidableEq, Repr

/-- KISS_COMBINE: how the KISS99 output is combined (R13). -/
inductive KissCombine where
  /-- `(mwc ^ jcong) ^ jsr`, the document's; the default. -/
  | xor
  /-- `(mwc ^ jcong) + jsr`, the published generator's. -/
  | add
  deriving DecidableEq, Repr

/-- The byte addresses `lo`, `lo + 1`, ..., `hi - 1` of the DAG space. -/
structure FaultRange where
  lo : Nat
  hi : Nat
  deriving DecidableEq, Repr

/-- The named parameters of R10. DAG_FAULT is a predicate on the 2^64 byte addresses; every such
predicate is a finite union of ranges, so it is held as their list (log 1). -/
structure Params where
  rcTable : RcTable
  kissCombine : KissCombine
  /-- GROUP_SIZE: search threads per early-exit group, at least 1. -/
  groupSize : Nat
  /-- N_CTX: physical hash contexts. No rule uses it (44_search.md R245). -/
  nCtx : Nat
  /-- AP_BASE: host address of the register aperture. -/
  apBase : Nat
  /-- DAG_FAULT: where a DAG read gets an error response. -/
  dagFaults : List FaultRange
  deriving DecidableEq, Repr

/-- DESIGN CHOICE (log 1), unsafe where a claim leans on it: the values `State.reset` carries. RC_TABLE, KISS_COMBINE and GROUP_SIZE are
the spec's defaults (R10, R12, R13); N_CTX, AP_BASE and DAG_FAULT are open in the spec. -/
def Params.default : Params where
  rcTable := .doc
  kissCombine := .xor
  groupSize := 32
  nCtx := 1
  apBase := 0
  dagFaults := []

/-- A draw: any 32-bit word, under no law (R16; log 4). Applied to `State.fresh`. -/
opaque Config.draw : Nat → Word

/-- Which live thread the engine steps when no event chooses it (44_search.md R238; log 5). Applied to
`State.fresh`. -/
opaque Config.schedule : Nat → Nat

end Sys2Proof
end

