-- ==== Sys2Proof/Machine/State.lean ====
section
/-! DEFINITION. The state of the block and of what it is connected to, as plain data; the reasons a step
can stop; and the state after reset (10_state.md, 70_reset_and_hazards.md R301). -/

namespace Sys2Proof.Machine

/-- The outcome codes of STATUS.ERR and STATUS.STICKY (60_exceptions.md R271). The reserved codes 8 to 15
are never produced and have no constructor. -/
inductive Code where
  /-- E_NONE, 0: completed normally. -/
  | none
  /-- E_ILLEGAL, 1: an illegal command word. -/
  | illegal
  /-- E_ARG, 2: KECCAK_ROUND with RND above 21. -/
  | arg
  /-- E_BUSY, 3: a host write while busy; in STICKY only. -/
  | busy
  /-- E_CONFIG, 4: DagCfgOK fails. -/
  | config
  /-- E_NOCACHE, 5: CACHE_VALID = 0. -/
  | noCache
  /-- E_MEM, 6: a DAG read faulted. -/
  | mem
  /-- E_ABORTED, 7: a SEARCH ended by CTRL.ABORT. -/
  | aborted
  deriving DecidableEq, Repr

/-- The DAG space's byte image (20_memory.md R65): addresses strictly rising, no entry equal to what an
unlisted address reads as (`Memory.wf`, log 2). -/
abbrev Memory := List Host.Cell

/-- The KISS99 state (41_kiss99.md R140). -/
structure Kiss where
  z : Word
  w : Word
  jsr : Word
  jcong : Word
  deriving DecidableEq, Repr

/-- A hash context (44_search.md R232): the state one hash runs on. The direct context is the
host-visible one (00_scope.md R19; 10_state.md R30, R36, R38, R43 to R48). -/
structure Ctx where
  /-- KS[0..24]: lane (x, y) is `ks[y * 5 + x]`. -/
  ks : Vector Word 25
  /-- SKW[0..7]. -/
  skw : Vector Word 8
  seedLo : Word
  seedHi : Word
  kiss : Kiss
  /-- LM[l][r]. -/
  lm : Vector (Vector Word 32) 16
  /-- MX[0..15]. -/
  mx : Vector Word 16
  loopIdx : Word
  /-- FM[0..7]. -/
  fm : Vector Word 8
  /-- DG[0..7]. -/
  dg : Vector Word 8
  deriving DecidableEq, Repr

/-- A search thread's record THR[t] (R50): the index of its next nonce, and whether it is live. -/
structure Thread where
  k : Nat
  live : Bool
  deriving DecidableEq, Repr

/-- The search bookkeeping (R50). It exists only while a SEARCH runs. -/
structure Search where
  /-- THR[0..THREADS-1]. -/
  thr : List Thread
  /-- GF[0..ceil(THREADS / GROUP_SIZE)-1]. -/
  gf : List Bool
  /-- ABORT_REQ. -/
  abortReq : Bool
  /-- MEMERR. -/
  memErr : Bool
  deriving DecidableEq, Repr

/-- The engine (60_exceptions.md R273). STATUS.BUSY is 1 exactly when it is not idle (log 8). -/
inductive Engine where
  /-- No command in progress. -/
  | idle
  /-- The word in CMD was accepted and its checks are not yet made. `abort`: CTRL.ABORT was written
  since, to a SEARCH (log 9). -/
  | accepted (abort : Bool)
  /-- A SEARCH runs, past its preload. -/
  | searching (r : Search)
  deriving DecidableEq, Repr

/-- One event of the total order of 20_memory.md R76, seen from outside the block (log 6). -/
inductive Event where
  /-- The engine takes its next step; a running SEARCH steps the live thread `choice` picks (log 5). -/
  | engine (choice : Nat)
  /-- The host reads `width` bytes at host address `addr`. -/
  | hostRead (width addr : Nat)
  /-- The host writes `data`, `width` bytes, at host address `addr`. -/
  | hostWrite (width addr : Nat) (data : Word)
  /-- Another agent of the platform writes one byte of DAGMEM (R65, 70_reset_and_hazards.md R309). -/
  | dagWrite (addr : DWord) (byte : Byte)
  /-- The platform asserts reset (R300). -/
  | reset
  deriving DecidableEq, Repr

/-- The state of the block (10_state.md R20), its environment (`params`, `dag`, `inputs`) and the
model's own fields (`rdata`, `fresh`). INVENTORY.md lists each field with its rule. -/
structure State where
  /-- The parameters of 00_scope.md R10 (log 1). -/
  params : Params
  /-- DAGMEM (R65; log 2). -/
  dag : Memory
  /-- The engine; STATUS.BUSY (R26). -/
  engine : Engine
  /-- STATUS.DONE (R26). -/
  done : Bool
  /-- STATUS.FOUND (R26). -/
  found : Bool
  /-- STATUS.CACHE_VALID (R26). -/
  cacheValid : Bool
  /-- STATUS.ERR (R26). -/
  err : Code
  /-- STATUS.STICKY (R26). -/
  sticky : Code
  /-- CMD (R27). -/
  cmd : Word
  /-- OPA, OPB, OPC (R28). -/
  opa : Word
  opb : Word
  opc : Word
  /-- RES (R29). -/
  res : Word
  /-- THREADS, NPT (R31). -/
  threads : Word
  npt : Word
  /-- NONCE (R32). -/
  nonceLo : Word
  nonceHi : Word
  /-- START_NONCE (R33). -/
  startLo : Word
  startHi : Word
  /-- DAG_BASE (R34). -/
  dagBaseLo : Word
  dagBaseHi : Word
  /-- DAG_SIZE (R35). -/
  dagSizeLo : Word
  dagSizeHi : Word
  /-- RNONCE (R37). -/
  rnonceLo : Word
  rnonceHi : Word
  /-- HEADER[0..7] (R39). -/
  header : Vector Word 8
  /-- TARGET[0..7] (R40). -/
  target : Vector Word 8
  /-- RHASH[0..7] (R41). -/
  rhash : Vector Word 8
  /-- RMIX[0..7] (R42). -/
  rmix : Vector Word 8
  /-- The direct context (R30, R36, R38, R43 to R48). -/
  ctx : Ctx
  /-- CACHE[0..4095] (R49; log 3). -/
  cache : Vector Word 4096
  /-- The events still to come, oldest first (log 6). -/
  inputs : List Event
  /-- The value the latest host read returned (log 14). -/
  rdata : Word
  /-- Which free value comes next (log 4). -/
  fresh : Nat
  deriving DecidableEq, Repr

/-- Why the machine stops with a fault. -/
inductive Fault where
  /-- Raised by a `dagWrite` event while a command that reads the DAG runs: a host duty is broken, and
  the spec gives the host no such move (60_exceptions.md R291, 70_reset_and_hazards.md R309; log 16).
  Safe: the model stops where a platform might go on. -/
  | dagChangedWhileRead
  deriving DecidableEq, Repr

/-- Why the model gives a step no meaning. -/
inductive Refusal where
  /-- Raised by an arm of `exec` without a meaning. No arm raises it. Safe. -/
  | notModelled (mnemonic : String)
  /-- Raised by a host access that is not 32 bits wide (60_exceptions.md R291, 93 U4; log 15). Safe. -/
  | accessWidth
  /-- Raised by a host access at an offset that is not a multiple of 4 (R291, 93 U4; log 15). Safe. -/
  | misalignedAccess
  /-- Raised by a host access outside the 0x5000-byte aperture (R52, 93 U5; log 15). Safe. -/
  | outsideAperture
  deriving DecidableEq, Repr

/-- What a meaning and a step answer. -/
abbrev Outcome := Host.Outcome State Fault Refusal

/-- A hash context of zeros: the direct context after reset (R301). -/
def Ctx.zero : Ctx where
  ks := Vector.replicate 25 0
  skw := Vector.replicate 8 0
  seedLo := 0
  seedHi := 0
  kiss := ⟨0, 0, 0, 0⟩
  lm := Vector.replicate 16 (Vector.replicate 32 0)
  mx := Vector.replicate 16 0
  loopIdx := 0
  fm := Vector.replicate 8 0
  dg := Vector.replicate 8 0

/-- The machine right after reset (70_reset_and_hazards.md R301). DESIGN CHOICE, unsafe where a claim leans on it: `params` (log 1), `dag`
(log 2), `cache` (log 3), `inputs` (log 6), `rdata` (log 14) and `fresh` (log 4). -/
def State.reset : State where
  params := Params.default
  dag := []
  engine := .idle
  done := false
  found := false
  cacheValid := false
  err := .none
  sticky := .none
  cmd := 0
  opa := 0
  opb := 0
  opc := 0
  res := 0
  threads := 0
  npt := 0
  nonceLo := 0
  nonceHi := 0
  startLo := 0
  startHi := 0
  dagBaseLo := 0
  dagBaseHi := 0
  dagSizeLo := 0
  dagSizeHi := 0
  rnonceLo := 0
  rnonceHi := 0
  header := Vector.replicate 8 0
  target := Vector.replicate 8 0
  rhash := Vector.replicate 8 0
  rmix := Vector.replicate 8 0
  ctx := Ctx.zero
  cache := Vector.replicate 4096 0
  inputs := []
  rdata := 0
  fresh := 0

end Sys2Proof.Machine
end

