-- ==== Sys2Proof/Machine/Flags.lean ====
section
/-! DEFINITION. STATUS, PARAM and the outcome record (10_state.md R24, R26; 60_exceptions.md R271, R274).
The block has no arithmetic flags (40_primitives.md R123). -/

namespace Sys2Proof.Machine

/-- The 4-bit number of an outcome code (R271). -/
def Code.bits : Code → BitVec 4
  | .none => 0
  | .illegal => 1
  | .arg => 2
  | .busy => 3
  | .config => 4
  | .noCache => 5
  | .mem => 6
  | .aborted => 7

/-- STICKY after `e` is recorded: it keeps the first nonzero code since it was last clear (R274, R280). -/
def Code.record (e sticky : Code) : Code :=
  if e ≠ .none ∧ sticky = .none then e else sticky

/-- BUSY: a command has been accepted and has not completed (R26; log 8). -/
def Engine.busy : Engine → Bool
  | .idle => false
  | .accepted _ => true
  | .searching _ => true

/-- STATUS.BUSY (R26). -/
def State.busy (s : State) : Bool := s.engine.busy

/-- STATUS as the host reads it (R26): STICKY 15:12, ERR 11:8, CACHE_VALID 3, FOUND 2, DONE 1, BUSY 0,
every other bit 0. -/
def State.statusWord (s : State) : Word :=
  0#16 ++ s.sticky.bits ++ s.err.bits ++ 0#4 ++
    BitVec.ofBool s.cacheValid ++ BitVec.ofBool s.found ++ BitVec.ofBool s.done ++
    BitVec.ofBool s.busy

/-- RCSEL, PARAM bit 0 (R24). -/
def rcSel (p : Params) : Bool :=
  match p.rcTable with
  | .doc => false
  | .std => true

/-- KSEL, PARAM bit 1 (R24). -/
def kSel (p : Params) : Bool :=
  match p.kissCombine with
  | .xor => false
  | .add => true

/-- PARAM as the host reads it (R24). -/
def paramWord (p : Params) : Word :=
  0#30 ++ BitVec.ofBool (kSel p) ++ BitVec.ofBool (rcSel p)

end Sys2Proof.Machine
end

