-- ==== Sys2Proof/Machine/Operands.lean ====
section
/-! DEFINITION. Where a command's and a host access's operands are: the 64-bit values held as register
pairs, the ARG field as a word, the register map of the aperture with its one read and one write
operation, and each command's write set (10_state.md R22; 30_encoding.md R93 to R95). -/

namespace Sys2Proof.Machine

/-- The 64-bit value held in the register pair `hi`, `lo` (00_scope.md R8, R14). -/
def pair (hi lo : Word) : DWord := hi ++ lo

/-- `lo32` (R14). -/
def lo32 (v : DWord) : Word := v.extractLsb' 0 32

/-- `hi32` (R14). -/
def hi32 (v : DWord) : Word := v.extractLsb' 32 32

/-- SEED (R36). -/
def Ctx.seed (c : Ctx) : DWord := pair c.seedHi c.seedLo

/-- NONCE (R32). -/
def State.nonce (s : State) : DWord := pair s.nonceHi s.nonceLo

/-- START_NONCE (R33). -/
def State.startNonce (s : State) : DWord := pair s.startHi s.startLo

/-- DAG_BASE (R34). -/
def State.dagBase (s : State) : DWord := pair s.dagBaseHi s.dagBaseLo

/-- DAG_SIZE (R35). -/
def State.dagSize (s : State) : DWord := pair s.dagSizeHi s.dagSizeLo

/-- RNONCE (R37). -/
def State.rnonce (s : State) : DWord := pair s.rnonceHi s.rnonceLo

/-- ARG zero-extended to a word (30_encoding.md R94). -/
def argWord (arg : BitVec 16) : Word := arg.setWidth 32

/-- A word reduced modulo LANES = 16 (00_scope.md R7; 43_mix.md R194, R195). -/
def laneOf (w : Word) : Fin 16 := ⟨w.toNat % 16, Nat.mod_lt _ (by decide)⟩

/-- A register of the aperture (R22). -/
inductive Reg where
  | id | param | ctrl | status | cmd | opa | opb | opc | res | loopIdx | threads | npt
  | nonceLo | nonceHi | startLo | startHi | dagBaseLo | dagBaseHi | dagSizeLo | dagSizeHi
  | seedLo | seedHi | rnonceLo | rnonceHi | kissZ | kissW | kissJsr | kissJcong
  | header (i : Fin 8) | target (i : Fin 8) | rhash (i : Fin 8) | rmix (i : Fin 8)
  | ks (i : Fin 25) | skw (i : Fin 8) | fm (i : Fin 8) | dg (i : Fin 8)
  | mx (l : Fin 16) | lm (l : Fin 16) (r : Fin 32) | cache (j : Fin 4096)
  deriving DecidableEq, Repr

/-- A register's offset in the aperture (R22). -/
def Reg.offset : Reg → Nat
  | .id => 0x0000
  | .param => 0x0004
  | .ctrl => 0x0008
  | .status => 0x000C
  | .cmd => 0x0010
  | .opa => 0x0014
  | .opb => 0x0018
  | .opc => 0x001C
  | .res => 0x0020
  | .loopIdx => 0x0024
  | .threads => 0x0028
  | .npt => 0x002C
  | .nonceLo => 0x0030
  | .nonceHi => 0x0034
  | .startLo => 0x0038
  | .startHi => 0x003C
  | .dagBaseLo => 0x0040
  | .dagBaseHi => 0x0044
  | .dagSizeLo => 0x0048
  | .dagSizeHi => 0x004C
  | .seedLo => 0x0050
  | .seedHi => 0x0054
  | .rnonceLo => 0x0058
  | .rnonceHi => 0x005C
  | .kissZ => 0x0060
  | .kissW => 0x0064
  | .kissJsr => 0x0068
  | .kissJcong => 0x006C
  | .header i => 0x0080 + 4 * i
  | .target i => 0x00A0 + 4 * i
  | .rhash i => 0x00C0 + 4 * i
  | .rmix i => 0x00E0 + 4 * i
  | .ks i => 0x0100 + 4 * i
  | .skw i => 0x0180 + 4 * i
  | .fm i => 0x01A0 + 4 * i
  | .dg i => 0x01C0 + 4 * i
  | .mx l => 0x0200 + 4 * l
  | .lm l r => 0x0800 + 128 * l + 4 * r
  | .cache j => 0x1000 + 4 * j

/-- The register number `n` of the aperture's first 0x70 bytes, at offset `4 * n` (R22). -/
def scalarAt : Nat → Option Reg
  | 0 => some .id
  | 1 => some .param
  | 2 => some .ctrl
  | 3 => some .status
  | 4 => some .cmd
  | 5 => some .opa
  | 6 => some .opb
  | 7 => some .opc
  | 8 => some .res
  | 9 => some .loopIdx
  | 10 => some .threads
  | 11 => some .npt
  | 12 => some .nonceLo
  | 13 => some .nonceHi
  | 14 => some .startLo
  | 15 => some .startHi
  | 16 => some .dagBaseLo
  | 17 => some .dagBaseHi
  | 18 => some .dagSizeLo
  | 19 => some .dagSizeHi
  | 20 => some .seedLo
  | 21 => some .seedHi
  | 22 => some .rnonceLo
  | 23 => some .rnonceHi
  | 24 => some .kissZ
  | 25 => some .kissW
  | 26 => some .kissJsr
  | 27 => some .kissJcong
  | _ => none

/-- The register at an offset of the aperture; none at a reserved offset (R22, R52). -/
def regAt (o : Nat) : Option Reg :=
  if o % 4 ≠ 0 then none
  else if o < 0x70 then scalarAt (o / 4)
  else if h : 0x80 ≤ o ∧ o < 0xA0 then some (.header ⟨(o - 0x80) / 4, by omega⟩)
  else if h : 0xA0 ≤ o ∧ o < 0xC0 then some (.target ⟨(o - 0xA0) / 4, by omega⟩)
  else if h : 0xC0 ≤ o ∧ o < 0xE0 then some (.rhash ⟨(o - 0xC0) / 4, by omega⟩)
  else if h : 0xE0 ≤ o ∧ o < 0x100 then some (.rmix ⟨(o - 0xE0) / 4, by omega⟩)
  else if h : 0x100 ≤ o ∧ o < 0x164 then some (.ks ⟨(o - 0x100) / 4, by omega⟩)
  else if h : 0x180 ≤ o ∧ o < 0x1A0 then some (.skw ⟨(o - 0x180) / 4, by omega⟩)
  else if h : 0x1A0 ≤ o ∧ o < 0x1C0 then some (.fm ⟨(o - 0x1A0) / 4, by omega⟩)
  else if h : 0x1C0 ≤ o ∧ o < 0x1E0 then some (.dg ⟨(o - 0x1C0) / 4, by omega⟩)
  else if h : 0x200 ≤ o ∧ o < 0x240 then some (.mx ⟨(o - 0x200) / 4, by omega⟩)
  else if h : 0x800 ≤ o ∧ o < 0x1000 then
    some (.lm ⟨(o - 0x800) / 128, by omega⟩ ⟨(o - 0x800) % 128 / 4, by omega⟩)
  else if h : 0x1000 ≤ o ∧ o < 0x5000 then some (.cache ⟨(o - 0x1000) / 4, by omega⟩)
  else none

/-- The value a register holds (R22 to R49, R51); what a host read returns beside the free values of
R49 and R54 (`State.readRegister`). -/
def State.readReg (s : State) : Reg → Word
  | .id => 0x4B415750
  | .param => paramWord s.params
  | .ctrl => 0
  | .status => s.statusWord
  | .cmd => s.cmd
  | .opa => s.opa
  | .opb => s.opb
  | .opc => s.opc
  | .res => s.res
  | .loopIdx => s.ctx.loopIdx
  | .threads => s.threads
  | .npt => s.npt
  | .nonceLo => s.nonceLo
  | .nonceHi => s.nonceHi
  | .startLo => s.startLo
  | .startHi => s.startHi
  | .dagBaseLo => s.dagBaseLo
  | .dagBaseHi => s.dagBaseHi
  | .dagSizeLo => s.dagSizeLo
  | .dagSizeHi => s.dagSizeHi
  | .seedLo => s.ctx.seedLo
  | .seedHi => s.ctx.seedHi
  | .rnonceLo => s.rnonceLo
  | .rnonceHi => s.rnonceHi
  | .kissZ => s.ctx.kiss.z
  | .kissW => s.ctx.kiss.w
  | .kissJsr => s.ctx.kiss.jsr
  | .kissJcong => s.ctx.kiss.jcong
  | .header i => s.header[i]
  | .target i => s.target[i]
  | .rhash i => s.rhash[i]
  | .rmix i => s.rmix[i]
  | .ks i => s.ctx.ks[i]
  | .skw i => s.ctx.skw[i]
  | .fm i => s.ctx.fm[i]
  | .dg i => s.ctx.dg[i]
  | .mx l => s.ctx.mx[l]
  | .lm l r => s.ctx.lm[l][r]
  | .cache j => s.cache[j]

/-- A host write of a data register while the block is idle (R22, R51). ID, PARAM, STATUS and CACHE are
RO: the write is ignored. CTRL and CMD act instead of storing (`State.ctrlWrite`, `State.accept`). A write
to DAG_BASE or DAG_SIZE clears CACHE_VALID (R34, R35, 20_memory.md R80). -/
def State.writeReg (s : State) (r : Reg) (v : Word) : State :=
  match r with
  | .id | .param | .status | .cache _ => s
  | .ctrl | .cmd => s
  | .opa => { s with opa := v }
  | .opb => { s with opb := v }
  | .opc => { s with opc := v }
  | .res => { s with res := v }
  | .loopIdx => { s with ctx.loopIdx := v }
  | .threads => { s with threads := v }
  | .npt => { s with npt := v }
  | .nonceLo => { s with nonceLo := v }
  | .nonceHi => { s with nonceHi := v }
  | .startLo => { s with startLo := v }
  | .startHi => { s with startHi := v }
  | .dagBaseLo => { s with dagBaseLo := v, cacheValid := false }
  | .dagBaseHi => { s with dagBaseHi := v, cacheValid := false }
  | .dagSizeLo => { s with dagSizeLo := v, cacheValid := false }
  | .dagSizeHi => { s with dagSizeHi := v, cacheValid := false }
  | .seedLo => { s with ctx.seedLo := v }
  | .seedHi => { s with ctx.seedHi := v }
  | .rnonceLo => { s with rnonceLo := v }
  | .rnonceHi => { s with rnonceHi := v }
  | .kissZ => { s with ctx.kiss.z := v }
  | .kissW => { s with ctx.kiss.w := v }
  | .kissJsr => { s with ctx.kiss.jsr := v }
  | .kissJcong => { s with ctx.kiss.jcong := v }
  | .header i => { s with header := s.header.set i v }
  | .target i => { s with target := s.target.set i v }
  | .rhash i => { s with rhash := s.rhash.set i v }
  | .rmix i => { s with rmix := s.rmix.set i v }
  | .ks i => { s with ctx.ks := s.ctx.ks.set i v }
  | .skw i => { s with ctx.skw := s.ctx.skw.set i v }
  | .fm i => { s with ctx.fm := s.ctx.fm.set i v }
  | .dg i => { s with ctx.dg := s.ctx.dg.set i v }
  | .mx l => { s with ctx.mx := s.ctx.mx.set l v }
  | .lm l r => { s with ctx.lm := s.ctx.lm.set l (s.ctx.lm[l].set r v) }

/-- The commands that write KISS_Z, KISS_W, KISS_JSR and KISS_JCONG (R22). -/
def writesKiss : Instr → Bool
  | .kissSeed | .kissNext | .mixFill | .loopSeed _ | .cacheMix | .mathMix | .dagMix _ => true
  | .loopIter _ | .hash => true
  | _ => false

/-- A command's write set: R22's column "cmd-written by", but for STATUS, which every command writes
and the host always reads exactly (R54). -/
def writeSet (i : Instr) : Reg → Bool
  | .res =>
    match i with
    | .fnv1a | .rotl | .rotr | .clz | .popc | .umulhi | .rmath | .rmerge => true
    | .kissNext | .hash | .targetCmp => true
    | _ => false
  | .loopIdx =>
    match i with
    | .loopSeed _ | .loopIter _ | .hash => true
    | _ => false
  | .seedLo | .seedHi | .skw _ =>
    match i with
    | .seedExtract | .hash => true
    | _ => false
  | .rnonceLo | .rnonceHi | .rhash _ | .rmix _ =>
    match i with
    | .search => true
    | _ => false
  | .kissZ | .kissW | .kissJsr | .kissJcong => writesKiss i
  | .ks _ =>
    match i with
    | .keccakF800 | .keccakRound _ | .seedAbsorb | .finalAbsorb | .hash => true
    | _ => false
  | .fm _ =>
    match i with
    | .finalReduce | .hash => true
    | _ => false
  | .dg _ =>
    match i with
    | .digestExtract | .hash => true
    | _ => false
  | .mx _ =>
    match i with
    | .mixReduce | .cacheMix | .mathMix | .dagMix _ | .loopIter _ | .hash => true
    | _ => false
  | .lm _ _ =>
    match i with
    | .mixFill | .mixUpdate | .loopIter _ | .hash => true
    | _ => false
  | .cache _ =>
    match i with
    | .cacheLoad | .hash | .search => true
    | _ => false
  | _ => false

/-- The result slot RNONCE, RHASH and RMIX (R37, R41, R42), which reads exactly during a SEARCH (R54). -/
def Reg.isResult : Reg → Bool
  | .rnonceLo | .rnonceHi | .rhash _ | .rmix _ => true
  | _ => false

/-- RNONCE, the result slot's nonce (R37). -/
def Reg.isResultNonce : Reg → Bool
  | .rnonceLo | .rnonceHi => true
  | _ => false

/-- A hot-cache register (R49). -/
def Reg.isCache : Reg → Bool
  | .cache _ => true
  | _ => false

/-- The commands that read the DAG (20_memory.md R60, 70_reset_and_hazards.md R309). -/
def readsDag : Instr → Bool
  | .cacheLoad | .dagMix _ | .loopIter _ | .hash | .search => true
  | _ => false

end Sys2Proof.Machine
end

