-- ==== Sys2Proof/Machine/Ops.lean ====
section
/-! DEFINITION. The named operations the meanings share: the DAG space and its port (20_memory.md), the
hot-cache preload, acceptance and completion of a command (60_exceptions.md R273 to R277), and the free
values a DAG fault leaves. Completion with an outcome code is how the block takes an error: it has no
trap to enter and none to return from (R281, R282). -/

namespace Sys2Proof.Machine

/-! ### DAGMEM -/

/-- DESIGN CHOICE (log 2), unsafe where a claim leans on it: what a byte of DAGMEM that nothing has placed reads as. -/
def Memory.unlisted : Byte := 0

/-- One byte of DAGMEM. -/
def Memory.read : Memory → Nat → Byte
  | [], _ => Memory.unlisted
  | (k, b) :: m, a => if k = a then b else Memory.read m a

/-- DAGMEM with one byte written, in canonical form. -/
def Memory.write : Memory → Nat → Byte → Memory
  | [], a, b => if b = Memory.unlisted then [] else [(a, b)]
  | (k, c) :: m, a, b =>
    if a < k then (if b = Memory.unlisted then (k, c) :: m else (a, b) :: (k, c) :: m)
    else if a = k then (if b = Memory.unlisted then m else (a, b) :: m)
    else (k, c) :: Memory.write m a b

/-- The canonical form: addresses strictly rising and inside the DAG space, no entry an unlisted byte. -/
def Memory.wf (m : Memory) : Bool :=
  decide (m.Pairwise fun x y => x.1 < y.1) &&
    m.all fun c => decide (c.1 < 2 ^ 64) && decide (c.2 ≠ Memory.unlisted)

/-- DAG_FAULT at one address (00_scope.md R10). -/
def dagFault (p : Params) (a : Nat) : Bool :=
  p.dagFaults.any fun r => decide (r.lo ≤ a) && decide (a < r.hi)

/-- A DAG request for `n` bytes at `a` gets a fault: DAG_FAULT holds for one of its bytes (20_memory.md
R66). -/
def requestFaults (p : Params) (a n : Nat) : Bool :=
  p.dagFaults.any fun r => decide (max a r.lo < min (a + n) r.hi)

/-- `LE32` (00_scope.md R16). -/
def le32 (b0 b1 b2 b3 : Byte) : Word := b3 ++ b2 ++ b1 ++ b0

/-- The little-endian word at byte address `a` of DAGMEM (20_memory.md R67). -/
def Memory.word (m : Memory) (a : Nat) : Word :=
  le32 (m.read a) (m.read (a + 1)) (m.read (a + 2)) (m.read (a + 3))

/-- `DagCfgOK` (20_memory.md R72); the sum is taken without wrap. -/
def State.dagCfgOK (s : State) : Bool :=
  decide (s.dagSize.toNat % 64 = 0 ∧ 16384 ≤ s.dagSize.toNat ∧ s.dagBase.toNat % 64 = 0 ∧
    s.dagBase.toNat + s.dagSize.toNat ≤ 2 ^ 64)

/-- `DAG_SIZE div 64`, the number of DAG items (R74). -/
def State.dagItems (s : State) : Nat := s.dagSize.toNat / 64

/-- `Item(idx)`: one 64-byte request; none when it faults (20_memory.md R66, R68). -/
def State.dagItem (s : State) (idx : Nat) : Option (Vector Word 16) :=
  if requestFaults s.params (s.dagBase.toNat + 64 * idx) 64 then none
  else some (tabulate fun k => s.dag.word (s.dagBase.toNat + 64 * idx + 4 * k.val))

/-- The hot-cache words `DagWord(0..4095)`, 256 requests of 64 bytes; none when one of them faults
(20_memory.md R66, R69). -/
def State.preload (s : State) : Option (Vector Word 4096) :=
  if requestFaults s.params s.dagBase.toNat 16384 then none
  else some (tabulate fun j => s.dag.word (s.dagBase.toNat + 4 * j.val))

/-! ### Register updates -/

/-- `RES <- v`. -/
def State.setRes (v : Word) (s : State) : State := { s with res := v }

/-- The direct context replaced. -/
def State.setCtx (c : Ctx) (s : State) : State := { s with ctx := c }

/-- A completed preload: CACHE holds the DAG's words and CACHE_VALID is 1 (44_search.md R231). -/
def State.loadCache (words : Vector Word 4096) (s : State) : State :=
  { s with cache := words, cacheValid := true }

/-- A faulted preload clears CACHE_VALID (20_memory.md R80). -/
def State.dropCache (s : State) : State := { s with cacheValid := false }

/-- The engine's phase replaced. -/
def State.setEngine (e : Engine) (s : State) : State := { s with engine := e }

/-! ### Free values -/

/-- The draw for register `r` (00_scope.md R16; log 4). -/
def State.drawFor (s : State) (r : Reg) : Word := Config.draw (s.fresh + r.offset / 4)

/-- A value for register `r`: a draw if `ws` holds of it, else the one it has. -/
def State.drawOrKeep (s : State) (ws : Reg → Bool) (r : Reg) : Word :=
  if ws r then s.drawFor r else s.readReg r

/-- The direct context with each register that `ws` holds of replaced by a draw. -/
def State.drawnCtx (s : State) (ws : Reg → Bool) : Ctx where
  ks := tabulate fun i => s.drawOrKeep ws (.ks i)
  skw := tabulate fun i => s.drawOrKeep ws (.skw i)
  seedLo := s.drawOrKeep ws .seedLo
  seedHi := s.drawOrKeep ws .seedHi
  kiss := ⟨s.drawOrKeep ws .kissZ, s.drawOrKeep ws .kissW, s.drawOrKeep ws .kissJsr,
    s.drawOrKeep ws .kissJcong⟩
  lm := tabulate fun l => tabulate fun r => s.drawOrKeep ws (.lm l r)
  mx := tabulate fun l => s.drawOrKeep ws (.mx l)
  loopIdx := s.drawOrKeep ws .loopIdx
  fm := tabulate fun i => s.drawOrKeep ws (.fm i)
  dg := tabulate fun i => s.drawOrKeep ws (.dg i)

/-- Every register that `ws` holds of becomes a draw, one draw a register (60_exceptions.md R277, 93 U3).
The registers reached are those some command's write set holds: the direct context, RES, the result slot
and CACHE. 0x1400 draws are used, one for each word of the aperture. -/
def State.clobber (ws : Reg → Bool) (s : State) : State :=
  { s with
    ctx := s.drawnCtx ws
    res := s.drawOrKeep ws .res
    rnonceLo := s.drawOrKeep ws .rnonceLo
    rnonceHi := s.drawOrKeep ws .rnonceHi
    rhash := tabulate fun i => s.drawOrKeep ws (.rhash i)
    rmix := tabulate fun i => s.drawOrKeep ws (.rmix i)
    cache := tabulate fun j => s.drawOrKeep ws (.cache j)
    fresh := s.fresh + 0x1400 }

/-! ### The life of a command -/

/-- Acceptance of command word `v`: one indivisible event (60_exceptions.md R273). It leaves FOUND as it
was, for SEARCH too (log 23). -/
def State.accept (v : Word) (s : State) : State :=
  { s with cmd := v, done := false, engine := .accepted false }

/-- Completion with outcome code `e`: one indivisible event (60_exceptions.md R274). -/
def State.complete (e : Code) (s : State) : State :=
  { s with err := e, sticky := e.record s.sticky, done := true, engine := .idle }

/-- A command that ran: it completes with E_NONE (R274). -/
def finish (s : State) : Outcome := .next (s.complete .none)

/-- `raise e` before execution: only STATUS changes (60_exceptions.md R276). -/
def raise (e : Code) (s : State) : Outcome := .next (s.complete e)

/-- A DAG fault during execution: the registers of the write set `ws` become draws and the command
completes with E_MEM (60_exceptions.md R277). -/
def memFault (ws : Reg → Bool) (s : State) : Outcome := .next ((s.clobber ws).complete .mem)

/-- The acceptance check DagCfgOK (60_exceptions.md R272). -/
def requireDag (s : State) (run : Outcome) : Outcome :=
  if s.dagCfgOK then run else raise .config s

/-- The acceptance check CACHE_VALID = 1 (60_exceptions.md R272). -/
def requireCache (s : State) (run : Outcome) : Outcome :=
  if s.cacheValid then run else raise .noCache s

/-- A command whose one effect is `RES <- v` (40_primitives.md R110). -/
def finishRes (v : Word) (s : State) : Outcome := finish (s.setRes v)

/-- A command whose one effect is on the direct context. -/
def finishCtx (c : Ctx) (s : State) : Outcome := finish (s.setCtx c)

/-- A command on the direct context that reads the DAG: none is a DAG fault. -/
def finishDag (ws : Reg → Bool) (c : Option Ctx) (s : State) : Outcome :=
  match c with
  | some c => finishCtx c s
  | none => memFault ws s

/-- An illegal command word: E_ILLEGAL, no state but STATUS changes (30_encoding.md R96). -/
def illegalCommand (s : State) : Outcome := raise .illegal s

/-- The command that runs (10_state.md R54): the one in CMD once it is accepted, SEARCH while its
threads run, none while idle or when the word in CMD is illegal. -/
def State.running (s : State) : Option Instr :=
  match s.engine with
  | .idle => none
  | .accepted _ => match decode s.cmd with
    | .ok i => some i
    | .error _ => none
  | .searching _ => some .search

end Sys2Proof.Machine
end

