-- ==== Sys2Proof/Machine/Primitives.lean ====
section
/-! DEFINITION. The primitives and their commands (40_primitives.md R110 to R123). All arithmetic is on
unsigned 32-bit words and wraps (R123). -/

namespace Sys2Proof.Machine

/-- FNV_PRIME (00_scope.md R7). -/
def fnvPrime : Word := 0x01000193

/-- FNV_OFFSET_BASIS (00_scope.md R7). -/
def fnvOffsetBasis : Word := 0x811C9DC5

/-- `fnv1a(h, d)` (R112). -/
def fnv1a (h d : Word) : Word := (h ^^^ d) * fnvPrime

/-- `rotl32(x, n)`; the amount is reduced modulo 32 (R114). -/
def rotl32 (x : Word) (n : Nat) : Word :=
  if n % 32 = 0 then x else (x <<< (n % 32)) ||| (x >>> (32 - n % 32))

/-- `rotr32(x, n)`; the amount is reduced modulo 32 (R115). -/
def rotr32 (x : Word) (n : Nat) : Word :=
  if n % 32 = 0 then x else (x >>> (n % 32)) ||| (x <<< (32 - n % 32))

/-- `clz32(x)`: the 0 bits from bit 31 down before the first 1; 32 for 0 (R116). -/
def clz32 (x : Word) : Word :=
  BitVec.ofNat 32 ((List.range 32).takeWhile fun i => !x.getLsbD (31 - i)).length

/-- `popcount32(x)`: the number of 1 bits (R117). -/
def popcount32 (x : Word) : Word :=
  BitVec.ofNat 32 ((List.range 32).countP fun i => x.getLsbD i)

/-- `umulhi(a, b)`: the high word of the 64-bit product (R118). -/
def umulhi (a b : Word) : Word := BitVec.ofNat 32 (a.toNat * b.toNat / 2 ^ 32)

/-- `random_math(a, b, r)` (R119). -/
def randomMath (a b r : Word) : Word :=
  match r.toNat % 9 with
  | 0 => a + b
  | 1 => a - b
  | 2 => a * b
  | 3 => umulhi a b
  | 4 => a ^^^ b
  | 5 => rotl32 a (b &&& 31).toNat
  | 6 => rotr32 a (b &&& 31).toNat
  | 7 => popcount32 a
  | _ => clz32 a

/-- `random_merge(a, b, r)` (R121). -/
def randomMerge (a b r : Word) : Word :=
  match r.toNat % 5 with
  | 0 => a + b
  | 1 => a * b
  | 2 => a &&& b
  | 3 => a ||| b
  | _ => a ^^^ b

/-- NOP: `skip` (R111). -/
def execNop (s : State) : Outcome := finish s

/-- FNV1A: `RES <- fnv1a(OPA, OPB)` (R113). -/
def execFnv1a (s : State) : Outcome := finishRes (fnv1a s.opa s.opb) s

/-- ROTL: `RES <- rotl32(OPA, OPB & 31)` (R114). -/
def execRotl (s : State) : Outcome := finishRes (rotl32 s.opa (s.opb &&& 31).toNat) s

/-- ROTR: `RES <- rotr32(OPA, OPB & 31)` (R115). -/
def execRotr (s : State) : Outcome := finishRes (rotr32 s.opa (s.opb &&& 31).toNat) s

/-- CLZ: `RES <- clz32(OPA)` (R116). -/
def execClz (s : State) : Outcome := finishRes (clz32 s.opa) s

/-- POPC: `RES <- popcount32(OPA)` (R117). -/
def execPopc (s : State) : Outcome := finishRes (popcount32 s.opa) s

/-- UMULHI: `RES <- umulhi(OPA, OPB)` (R118). -/
def execUmulhi (s : State) : Outcome := finishRes (umulhi s.opa s.opb) s

/-- RMATH: `RES <- random_math(OPA, OPB, OPC)` (R120). -/
def execRmath (s : State) : Outcome := finishRes (randomMath s.opa s.opb s.opc) s

/-- RMERGE: `RES <- random_merge(OPA, OPB, OPC)` (R122). -/
def execRmerge (s : State) : Outcome := finishRes (randomMerge s.opa s.opb s.opc) s

end Sys2Proof.Machine
end

