-- ==== Sys2Proof/Machine/Keccak.lean ====
section
/-! DEFINITION. The Keccak-f[800] permutation, its packings and their commands (42_keccak.md R160 to
R173). Lane (x, y) is word y * 5 + x (R160). -/

namespace Sys2Proof.Machine

/-- The document's round constants (R161, column DOC). -/
def rcDoc : Vector Word 22 :=
  #v[0x00000001, 0x00000082, 0x0000808A, 0x00008000, 0x0000808B, 0x80000001, 0x80008081, 0x80008009,
    0x0000008A, 0x00000088, 0x80008009, 0x80000008, 0x80008002, 0x80008003, 0x80008002, 0x80000080,
    0x0000800A, 0x8000000A, 0x80008081, 0x80008080, 0x80000001, 0x80008008]

/-- The standard round constants (R161, column STD). -/
def rcStd : Vector Word 22 :=
  #v[0x00000001, 0x00008082, 0x0000808A, 0x80008000, 0x0000808B, 0x80000001, 0x80008081, 0x00008009,
    0x0000008A, 0x00000088, 0x80008009, 0x8000000A, 0x8000808B, 0x0000008B, 0x00008089, 0x00008003,
    0x00008002, 0x00000080, 0x0000800A, 0x8000000A, 0x80008081, 0x00008080]

/-- `RC[0..21]` (R161). -/
def roundConstants (t : RcTable) : Vector Word 22 :=
  match t with
  | .doc => rcDoc
  | .std => rcStd

/-- The column parities `C[x]` of theta (R162). -/
def columnParity (a : Vector Word 25) : Vector Word 5 :=
  tabulate fun x => a[x.val] ^^^ a[x.val + 5] ^^^ a[x.val + 10] ^^^ a[x.val + 15] ^^^ a[x.val + 20]

/-- Theta (R162). -/
def theta (a : Vector Word 25) : Vector Word 25 :=
  let parity := columnParity a
  let d : Vector Word 5 :=
    tabulate fun x => parity[(x.val + 4) % 5] ^^^ rotl32 parity[(x.val + 1) % 5] 1
  tabulate fun i => a[i] ^^^ d[i.val % 5]

/-- The rotation `ROT[x][y]` of source lane `x + 5 * y` (R163's table, by source word). -/
def rhoOffsets : Vector Nat 25 :=
  #v[0, 1, 30, 28, 27, 4, 12, 6, 23, 20, 3, 10, 11, 25, 7, 9, 13, 15, 21, 8, 18, 2, 29, 24, 14]

/-- The source word of destination `j` in rho+pi: `j = y + 5 * ((2x + 3y) mod 5)` comes from
`x + 5 * y`, where `y = j mod 5` and `x = (j mod 5 + 3 * (j div 5)) mod 5` (R163). -/
def piSource (j : Fin 25) : Fin 25 :=
  ⟨(j.val % 5 + 3 * (j.val / 5)) % 5 + 5 * (j.val % 5), by omega⟩

/-- Rho+Pi (R163). -/
def rhoPi (a : Vector Word 25) : Vector Word 25 :=
  tabulate fun j => rotl32 a[piSource j] rhoOffsets[piSource j]

/-- Chi (R164); every right-hand side reads `b`. -/
def chi (b : Vector Word 25) : Vector Word 25 :=
  tabulate fun i =>
    b[i] ^^^ (~~~ b[i.val / 5 * 5 + (i.val % 5 + 1) % 5] &&& b[i.val / 5 * 5 + (i.val % 5 + 2) % 5])

/-- Iota with round constant `rc` (R165). -/
def iota (rc : Word) (a : Vector Word 25) : Vector Word 25 := a.set 0 (a[0] ^^^ rc)

/-- `round(A, r)`, given `RC[r]` (R166). -/
def keccakRound (rc : Word) (a : Vector Word 25) : Vector Word 25 := iota rc (chi (rhoPi (theta a)))

/-- `keccak_f800(A)`: 22 rounds, r rising from 0 (R167). -/
def keccakF800 (t : RcTable) (a : Vector Word 25) : Vector Word 25 :=
  (roundConstants t).toList.foldl (fun a rc => keccakRound rc a) a

/-- KECCAK_F800 on a context (R168). -/
def Ctx.permute (t : RcTable) (c : Ctx) : Ctx := { c with ks := keccakF800 t c.ks }

/-- SEED_ABSORB on a context: header, nonce, zeros (R170). -/
def Ctx.seedAbsorb (header : Vector Word 8) (nonceLo nonceHi : Word) (c : Ctx) : Ctx :=
  { c with ks := tabulate fun i =>
      if h : i.val < 8 then header[i.val]
      else if i.val = 8 then nonceLo
      else if i.val = 9 then nonceHi
      else 0 }

/-- Words 0..7 of a Keccak state (R171, R173). -/
def lowWords (ks : Vector Word 25) : Vector Word 8 := tabulate fun i => ks[i.val]

/-- SEED_EXTRACT on a context (R171). -/
def Ctx.seedExtract (c : Ctx) : Ctx :=
  { c with seedHi := c.ks[0], seedLo := c.ks[1], skw := lowWords c.ks }

/-- FINAL_ABSORB on a context: final mix, seed-Keccak words, zeros (R172). -/
def Ctx.finalAbsorb (c : Ctx) : Ctx :=
  { c with ks := tabulate fun i =>
      if h : i.val < 8 then c.fm[i.val]
      else if h : i.val < 16 then c.skw[i.val - 8]
      else 0 }

/-- DIGEST_EXTRACT on a context (R173). -/
def Ctx.digestExtract (c : Ctx) : Ctx := { c with dg := lowWords c.ks }

/-- KECCAK_F800: `KS <- keccak_f800(KS)` (R168). -/
def execKeccakF800 (s : State) : Outcome := finishCtx (s.ctx.permute s.params.rcTable) s

/-- KECCAK_ROUND: E_ARG when RND is above 21, else `KS <- round(KS, r)` (R169). -/
def execKeccakRound (rnd : BitVec 5) (s : State) : Outcome :=
  if h : rnd.toNat < 22 then
    finishCtx { s.ctx with
      ks := keccakRound (roundConstants s.params.rcTable)[rnd.toNat] s.ctx.ks } s
  else raise .arg s

/-- SEED_ABSORB (R170). -/
def execSeedAbsorb (s : State) : Outcome :=
  finishCtx (s.ctx.seedAbsorb s.header s.nonceLo s.nonceHi) s

/-- SEED_EXTRACT (R171). -/
def execSeedExtract (s : State) : Outcome := finishCtx s.ctx.seedExtract s

/-- FINAL_ABSORB (R172). -/
def execFinalAbsorb (s : State) : Outcome := finishCtx s.ctx.finalAbsorb s

/-- DIGEST_EXTRACT (R173). -/
def execDigestExtract (s : State) : Outcome := finishCtx s.ctx.digestExtract s

end Sys2Proof.Machine
end

