-- ==== Sys2Proof/Machine/KissGen.lean ====
section
/-! DEFINITION. The KISS99 generator and its commands (41_kiss99.md R140 to R145). -/

namespace Sys2Proof.Machine

/-- The state update of `next()` (R141). -/
def Kiss.step (k : Kiss) : Kiss :=
  let jsr₁ := k.jsr ^^^ (k.jsr <<< 17)
  let jsr₂ := jsr₁ ^^^ (jsr₁ >>> 13)
  { z := 36969#32 * (k.z &&& 0xFFFF#32) + (k.z >>> 16)
    w := 18000#32 * (k.w &&& 0xFFFF#32) + (k.w >>> 16)
    jsr := jsr₂ ^^^ (jsr₂ <<< 5)
    jcong := 69069#32 * k.jcong + 1234567#32 }

/-- The output of `next()`, from the updated state (R141). -/
def Kiss.output (combine : KissCombine) (k : Kiss) : Word :=
  match combine with
  | .xor => ((k.z <<< 16) + k.w) ^^^ k.jcong ^^^ k.jsr
  | .add => (((k.z <<< 16) + k.w) ^^^ k.jcong) + k.jsr

/-- `next()`: the output and the updated state (R141). -/
def kissNext (combine : KissCombine) (k : Kiss) : Word × Kiss :=
  (k.step.output combine, k.step)

/-- `kiss_init(seed, lane_id)` (R142). -/
def kissInit (seed : DWord) (laneId : Word) : Kiss :=
  let z := fnv1a fnvOffsetBasis (lo32 seed)
  let w := fnv1a z (hi32 seed)
  let jsr := fnv1a w laneId
  { z, w, jsr, jcong := fnv1a jsr (laneId + 1) }

/-- `n` successive outputs, in order, and the state after them (R141; 43_mix.md R191). -/
def kissDraws (combine : KissCombine) : (n : Nat) → Kiss → Vector Word n × Kiss
  | 0, k => (#v[], k)
  | n + 1, k =>
    let row := kissDraws combine n k
    let out := kissNext combine row.2
    (row.1.push out.1, out.2)

/-- KISS_SEED: the KISS registers `<- kiss_init(SEED, OPA)` (R143). -/
def execKissSeed (s : State) : Outcome :=
  finishCtx { s.ctx with kiss := kissInit s.ctx.seed s.opa } s

/-- KISS_NEXT: `RES <- next()` (R144). -/
def execKissNext (s : State) : Outcome :=
  let out := kissNext s.params.kissCombine s.ctx.kiss
  finish ((s.setRes out.1).setCtx { s.ctx with kiss := out.2 })

end Sys2Proof.Machine
end

