-- ==== Sys2Proof/Machine/Mix.lean ====
section
/-! DEFINITION. The mix pipeline and its commands (43_mix.md R190 to R201). Each body is a function of a
hash context, so that the commands, HASH and the search threads share it (44_search.md R230). -/

namespace Sys2Proof.Machine

/-- What a hash reads beside its context (44_search.md R232): the parameters, the hot cache, the number
of DAG items, and the item read, none being a DAG fault. -/
structure HashEnv where
  params : Params
  cache : Vector Word 4096
  items : Nat
  item : Nat → Option (Vector Word 16)

/-- What the direct context's commands read. -/
def State.hashEnv (s : State) : HashEnv where
  params := s.params
  cache := s.cache
  items := s.dagItems
  item := s.dagItem

/-- MIX_FILL's body: lane `l` gets 32 outputs of the generator seeded with `(SEED, l)`; the KISS
registers end as lane 15's (R191). -/
def Ctx.mixFill (combine : KissCombine) (c : Ctx) : Ctx :=
  let lane (l : Nat) := kissDraws combine 32 (kissInit c.seed (BitVec.ofNat 32 l))
  { c with lm := tabulate fun l => (lane l.val).1, kiss := (lane 15).2 }

/-- MIX_REDUCE's body (R192). -/
def Ctx.mixReduce (c : Ctx) : Ctx :=
  { c with mx := tabulate fun l => c.lm[l].toList.foldl fnv1a fnvOffsetBasis }

/-- LOOP_SEED's body (R193). -/
def Ctx.loopSeed (arg : BitVec 16) (c : Ctx) : Ctx :=
  { c with loopIdx := argWord arg, kiss := kissInit c.seed (argWord arg) }

/-- CACHE_MIX's body, without its check (R194). -/
def Ctx.cacheMix (combine : KissCombine) (cache : Vector Word 4096) (c : Ctx) : Ctx :=
  let d₁ := kissNext combine c.kiss
  let lane := laneOf d₁.1
  let cv := cache[c.mx[lane].toNat % 4096]'(Nat.mod_lt _ (by decide))
  let d₂ := kissNext combine d₁.2
  { c with mx := c.mx.set lane (randomMerge c.mx[lane] cv d₂.1), kiss := d₂.2 }

/-- MATH_MIX's body: five draws, for src1, src2, dst, the math selector and the merge selector (R195). -/
def Ctx.mathMix (combine : KissCombine) (c : Ctx) : Ctx :=
  let d₁ := kissNext combine c.kiss
  let d₂ := kissNext combine d₁.2
  let d₃ := kissNext combine d₂.2
  let d₄ := kissNext combine d₃.2
  let d₅ := kissNext combine d₄.2
  let dst := laneOf d₃.1
  let r := randomMath c.mx[laneOf d₁.1] c.mx[laneOf d₂.1] d₄.1
  { c with mx := c.mx.set dst (randomMerge c.mx[dst] r d₅.1), kiss := d₅.2 }

/-- Word `k` of a DAG item merged into `MX[(lane + k) mod 16]` (R196). -/
def mergeWord (combine : KissCombine) (lane : Fin 16) (item : Vector Word 16)
    (acc : Vector Word 16 × Kiss) (k : Fin 16) : Vector Word 16 × Kiss :=
  let t := lane + k
  let d := kissNext combine acc.2
  (acc.1.set t (randomMerge acc.1[t] item[k] d.1), d.2)

/-- A DAG item merged into MX, word 0 first (R196). -/
def mergeItem (combine : KissCombine) (lane : Fin 16) (item : Vector Word 16)
    (acc : Vector Word 16 × Kiss) : Vector Word 16 × Kiss :=
  (List.finRange 16).foldl (mergeWord combine lane item) acc

/-- The item index of a DAG mix led by `lane` (R196, 20_memory.md R74). -/
def Ctx.dagIndex (items : Nat) (lane : Fin 16) (c : Ctx) : Nat :=
  (fnv1a c.loopIdx c.mx[lane]).toNat % items

/-- DAG_MIX's body, without its check; none is a DAG fault (R196). -/
def Ctx.dagMix (env : HashEnv) (arg : BitVec 16) (c : Ctx) : Option Ctx :=
  let lane := laneOf (argWord arg)
  match env.item (c.dagIndex env.items lane) with
  | none => none
  | some item =>
    let out := mergeItem env.params.kissCombine lane item (c.mx, c.kiss)
    some { c with mx := out.1, kiss := out.2 }

/-- MIX_UPDATE's body (R197). -/
def Ctx.mixUpdate (c : Ctx) : Ctx :=
  { c with lm := tabulate fun l => tabulate fun r => fnv1a c.lm[l][r] c.mx[l] }

/-- LOOP_ITER's body, without its checks: steps 2a to 2f (R198). -/
def Ctx.loopIter (env : HashEnv) (arg : BitVec 16) (c : Ctx) : Option Ctx :=
  let c₁ := c.mixReduce.loopSeed arg
  let c₂ := (Ctx.cacheMix env.params.kissCombine env.cache)^[11] c₁
  let c₃ := (Ctx.mathMix env.params.kissCombine)^[18] c₂
  let c₄ := (List.range 64).foldlM (fun c i => c.dagMix env (BitVec.ofNat 16 i)) c₃
  c₄.map Ctx.mixUpdate

/-- FINAL_REDUCE's body: `FM[i]` folds lane `i`, then lane `i + 8`, register 0 of each (R199). -/
def Ctx.finalReduce (c : Ctx) : Ctx :=
  { c with fm := tabulate fun i =>
      fnv1a (fnv1a fnvOffsetBasis c.lm[i.val][0]) c.lm[i.val + 8][0] }

/-- MIX_FILL (R191). -/
def execMixFill (s : State) : Outcome := finishCtx (s.ctx.mixFill s.params.kissCombine) s

/-- MIX_REDUCE (R192). -/
def execMixReduce (s : State) : Outcome := finishCtx s.ctx.mixReduce s

/-- LOOP_SEED (R193). -/
def execLoopSeed (arg : BitVec 16) (s : State) : Outcome := finishCtx (s.ctx.loopSeed arg) s

/-- CACHE_MIX: E_NOCACHE without a valid cache (R194). -/
def execCacheMix (s : State) : Outcome :=
  requireCache s (finishCtx (s.ctx.cacheMix s.params.kissCombine s.cache) s)

/-- MATH_MIX (R195). -/
def execMathMix (s : State) : Outcome := finishCtx (s.ctx.mathMix s.params.kissCombine) s

/-- DAG_MIX: E_CONFIG, then E_MEM on a fault (R196). -/
def execDagMix (arg : BitVec 16) (s : State) : Outcome :=
  requireDag s (finishDag (writeSet (.dagMix arg)) (s.ctx.dagMix s.hashEnv arg) s)

/-- MIX_UPDATE (R197). -/
def execMixUpdate (s : State) : Outcome := finishCtx s.ctx.mixUpdate s

/-- LOOP_ITER: E_CONFIG, then E_NOCACHE, then E_MEM on a fault (R198, 60_exceptions.md R275). -/
def execLoopIter (arg : BitVec 16) (s : State) : Outcome :=
  requireDag s (requireCache s
    (finishDag (writeSet (.loopIter arg)) (s.ctx.loopIter s.hashEnv arg) s))

/-- FINAL_REDUCE (R199). -/
def execFinalReduce (s : State) : Outcome := finishCtx s.ctx.finalReduce s

end Sys2Proof.Machine
end

