-- ==== Sys2Proof/Machine/Search.lean ====
section
/-! DEFINITION. CACHE_LOAD, HASH, TARGET_CMP and SEARCH, and the steps of a running SEARCH (44_search.md
R230 to R247). -/

namespace Sys2Proof.Machine

/-! ### The whole hash -/

/-- The sequence of command bodies of one hash, on a context; none is a DAG fault (R232). -/
def Ctx.runHash (env : HashEnv) (header : Vector Word 8) (nonceLo nonceHi : Word) (c : Ctx) :
    Option Ctx :=
  let c₁ := ((c.seedAbsorb header nonceLo nonceHi).permute env.params.rcTable).seedExtract
  let c₂ := (List.range 64).foldlM (fun c j => c.loopIter env (BitVec.ofNat 16 j))
    (c₁.mixFill env.params.kissCombine)
  c₂.map fun c => (c.finalReduce.finalAbsorb.permute env.params.rcTable).digestExtract

/-- `KawHash(header, nonce)`: the digest and the final mix, on a private context (R232; log 17). -/
def kawHash (env : HashEnv) (header : Vector Word 8) (nonce : DWord) :
    Option (Vector Word 8 × Vector Word 8) :=
  (Ctx.zero.runHash env header (lo32 nonce) (hi32 nonce)).map fun c => (c.dg, c.fm)

/-- The integer of 8 words, word 0 least significant (R234, 20_memory.md R81). -/
def wordsNat (v : Vector Word 8) : Nat :=
  v.toList.foldr (fun w acc => w.toNat + 2 ^ 32 * acc) 0

/-- `valid(dg, tg)`: the digest does not exceed the target (R234). -/
def digestValid (dg tg : Vector Word 8) : Bool := decide (wordsNat dg ≤ wordsNat tg)

/-- What TARGET_CMP and HASH write to RES: 1 if valid, else 0 (R233, R235). -/
def validWord (dg tg : Vector Word 8) : Word := if digestValid dg tg then 1 else 0

/-- CACHE_LOAD: E_CONFIG, then E_MEM on a fault, with CACHE_VALID cleared (R231). -/
def execCacheLoad (s : State) : Outcome :=
  requireDag s (match s.preload with
    | some words => finish (s.loadCache words)
    | none => memFault (writeSet .cacheLoad) s.dropCache)

/-- HASH past its preload: the hash of HEADER and NONCE in the direct context, then the comparison
(R233). -/
def hashLoaded (s : State) : Outcome :=
  match s.ctx.runHash s.hashEnv s.header s.nonceLo s.nonceHi with
  | some c => finish ((s.setCtx c).setRes (validWord c.dg s.target))
  | none => memFault (writeSet .hash) s

/-- HASH: E_CONFIG, then the preload, then the hash; E_MEM on any fault (R233; log 11). -/
def execHash (s : State) : Outcome :=
  requireDag s (match s.preload with
    | some words => hashLoaded (s.loadCache words)
    | none => memFault (writeSet .hash) s.dropCache)

/-- TARGET_CMP: `RES <- 1 if valid(DG, TARGET) else 0` (R235). -/
def execTargetCmp (s : State) : Outcome := finishRes (validWord s.ctx.dg s.target) s

/-! ### SEARCH: acceptance and preload -/

/-- The number of early-exit groups, `ceil(THREADS / GROUP_SIZE)` (10_state.md R50; log 21). -/
def groupCount (threads groupSize : Nat) : Nat :=
  if threads = 0 then 0 else (threads - 1) / groupSize + 1

/-- ABORT_REQ as the SEARCH's records are made: set by an ABORT since acceptance (log 9). -/
def Engine.abortPending : Engine → Bool
  | .accepted abort => abort
  | .idle => false
  | .searching _ => false

/-- The records a SEARCH starts with (R236). -/
def State.newSearch (s : State) : Search where
  thr := List.replicate s.threads.toNat ⟨0, true⟩
  gf := List.replicate (groupCount s.threads.toNat s.params.groupSize) false
  abortReq := s.engine.abortPending
  memErr := false

/-- `STATUS.FOUND <- 0` (R236). DESIGN CHOICE (log 23), unsafe: it happens in the engine's first step of the
SEARCH, after the check, and not in the CMD write that accepts it. -/
def State.clearFound (s : State) : State := { s with found := false }

/-- SEARCH: E_CONFIG, then FOUND cleared, the records and the preload; the engine then searches (R236).
When in the acceptance FOUND is cleared is the model's choice (log 23): here, so a host may read BUSY = 1
with the FOUND of an earlier SEARCH before this step. -/
def execSearch (s : State) : Outcome :=
  requireDag s (match s.preload with
    | some words => .next ((s.clearFound.loadCache words).setEngine (.searching s.newSearch))
    | none =>
      .next (s.clearFound.dropCache.setEngine (.searching { s.newSearch with memErr := true })))

/-! ### SEARCH: the search threads -/

/-- `n(t, k) = (START_NONCE + t * NPT + k) mod 2^64` (R237). -/
def State.nonceOf (s : State) (t k : Nat) : DWord :=
  s.startNonce + BitVec.ofNat 64 (t * s.npt.toNat + k)

/-- Thread t's record; one that no SEARCH has is not live. -/
def Search.thread (r : Search) (t : Nat) : Thread := r.thr.getD t ⟨0, false⟩

/-- Thread t's record replaced. -/
def Search.setThread (t : Nat) (th : Thread) (r : Search) : Search := { r with thr := r.thr.set t th }

/-- The live threads, t rising (R238). -/
def Search.liveThreads (r : Search) : List Nat :=
  (List.range r.thr.length).filter fun t => (r.thread t).live

/-- Thread t must exit at its step: its group hit, or an abort or a fault came (R239). -/
def Search.exits (r : Search) (group : Nat) : Bool :=
  r.gf.getD group false || r.abortReq || r.memErr

/-- `THR[t].live <- false`. -/
def Search.retire (t : Nat) (r : Search) : Search :=
  r.setThread t { r.thread t with live := false }

/-- The thread's next nonce; after its last one it is no longer live (R239). -/
def Search.advance (npt t : Nat) (r : Search) : Search :=
  let k := (r.thread t).k + 1
  r.setThread t ⟨k, decide (k ≠ npt)⟩

/-- `commit(n, dg, fm)`: one indivisible event, with no effect once RNONCE is nonzero (R240). -/
def State.commit (n : DWord) (dg fm : Vector Word 8) (s : State) : State :=
  if s.rnonce = 0 then
    { s with rnonceLo := lo32 n, rnonceHi := hi32 n, rhash := dg, rmix := fm, found := true }
  else s

/-- A digest that ends its thread's walk: valid, and not nonce 0's (R239). -/
def isHit (n : DWord) (dg target : Vector Word 8) : Bool :=
  digestValid dg target && decide (n ≠ 0)

/-- Live thread t hashes its next nonce (R239). -/
def hashStep (t : Nat) (r : Search) (s : State) : State :=
  let n := s.nonceOf t (r.thread t).k
  match kawHash s.hashEnv s.header n with
  | none => s.setEngine (.searching { r.retire t with memErr := true })
  | some (dg, fm) =>
    if isHit n dg s.target then
      (s.commit n dg fm).setEngine
        (.searching { r.retire t with gf := r.gf.set (t / s.params.groupSize) true })
    else s.setEngine (.searching (r.advance s.npt.toNat t))

/-- The step of live thread t, atomic (R239). A thread with no nonce left, which only NPT = 0 makes live,
exits without hashing (R236's corner case; log 10). -/
def threadStep (t : Nat) (r : Search) (s : State) : State :=
  if r.exits (t / s.params.groupSize) = true ∨ s.npt.toNat ≤ (r.thread t).k then
    s.setEngine (.searching (r.retire t))
  else hashStep t r s

/-- The outcome of a SEARCH with no live thread: E_MEM before E_ABORTED (R243). -/
def Search.outcome (r : Search) : Code :=
  if r.memErr then .mem else if r.abortReq then .aborted else .none

/-- The registers that become draws when a SEARCH ends with E_MEM (60_exceptions.md R277): its write set
(R246), but for the result slot after a commit, which stays (R243, R277; a commit happened exactly when
FOUND = 1, R240), and for an RNONCE of 0 without one (R244 (d); log 12). -/
def State.searchFaultSet (s : State) (reg : Reg) : Bool :=
  writeSet .search reg && !(reg.isResult && s.found) &&
    !(reg.isResultNonce && decide (s.rnonce = 0))

/-- SEARCH completion (R243). After E_MEM the write set holds draws, as `State.searchFaultSet` says
(60_exceptions.md R277; log 11, 12). -/
def finishSearch (r : Search) (s : State) : Outcome :=
  if r.memErr then memFault s.searchFaultSet s else .next (s.complete r.outcome)

/-- One engine step of a running SEARCH: a live thread's step, the one `choice` picks among them, or
completion when none is live (R238, R243; log 5). -/
def searchStep (choice : Nat) (r : Search) (s : State) : Outcome :=
  match r.liveThreads with
  | [] => finishSearch r s
  | t :: ts => .next (threadStep ((t :: ts).getD (choice % (ts.length + 1)) t) r s)

/-- One engine step of a running SEARCH that no event chooses: a free choice (log 5). -/
def searchStepFree (r : Search) (s : State) : Outcome :=
  searchStep (Config.schedule s.fresh) r { s with fresh := s.fresh + 1 }

end Sys2Proof.Machine
end

