-- ==== Sys2Proof/Machine/Bus.lean ====
section
/-! DEFINITION. What comes from outside the block: host accesses to the aperture (10_state.md R22 to R27,
R51 to R54; 20_memory.md R61, R62), changes of DAGMEM (70_reset_and_hazards.md R309) and reset (R300). -/

namespace Sys2Proof.Machine

/-- The aperture's size (R22). -/
def apertureBytes : Nat := 0x5000

/-- The aperture offset of a host access, or why the model refuses the access (20_memory.md R61,
60_exceptions.md R291; log 15). -/
def State.accessOffset (s : State) (width addr : Nat) : Except Refusal Nat :=
  if width ≠ 4 then .error .accessWidth
  else if addr < s.params.apBase ∨ s.params.apBase + apertureBytes ≤ addr then
    .error .outsideAperture
  else if (addr - s.params.apBase) % 4 ≠ 0 then .error .misalignedAccess
  else .ok (addr - s.params.apBase)

/-- The running command may write register `r` (R54). -/
def State.inWriteSet (s : State) (r : Reg) : Bool :=
  match s.running with
  | some i => writeSet i r
  | none => false

/-- A host read of `r` gives a free value: CACHE while CACHE_VALID = 0 (R49), and the running command's
write set but the result slot (R54; log 4, 19). -/
def State.readsDraw (s : State) (r : Reg) : Bool :=
  (r.isCache && !s.cacheValid) || (s.inWriteSet r && !r.isResult)

/-- A host read of register `r` (R51, R54). -/
def State.readRegister (s : State) (r : Reg) : State :=
  if s.readsDraw r then { s with rdata := Config.draw s.fresh, fresh := s.fresh + 1 }
  else { s with rdata := s.readReg r }

/-- A host read; a reserved offset reads 0 (R52). -/
def hostRead (width addr : Nat) (s : State) : Outcome :=
  match s.accessOffset width addr with
  | .error r => .refused r
  | .ok o => match regAt o with
    | none => .next { s with rdata := 0 }
    | some r => .next (s.readRegister r)

/-- `CTRL.ABORT = 1`: sets ABORT_REQ of a running SEARCH, and has no effect otherwise (R25, 44_search.md
R242, 60_exceptions.md R278; log 9). -/
def State.abort (s : State) : State :=
  match s.engine with
  | .idle => s
  | .accepted _ => if s.running = some .search then { s with engine := .accepted true } else s
  | .searching r => { s with engine := .searching { r with abortReq := true } }

/-- `CTRL.CLR_ERR = 1`: STICKY becomes 0 (60_exceptions.md R280). -/
def State.clearErr (s : State) : State := { s with sticky := .none }

/-- A host write to CTRL: bit 0 ABORT, bit 1 CLR_ERR, the other bits ignored (R25). -/
def State.ctrlWrite (v : Word) (s : State) : State :=
  let s₁ := if v.getLsbD 0 then s.abort else s
  if v.getLsbD 1 then s₁.clearErr else s₁

/-- A host write that is ignored because a command runs: STICKY records E_BUSY (R53, 60_exceptions.md
R279). -/
def State.noteBusy (s : State) : State := { s with sticky := Code.record .busy s.sticky }

/-- A host write of register `r` (R25, R27, R51, R53). -/
def State.writeRegister (s : State) (r : Reg) (v : Word) : State :=
  if r = .ctrl then s.ctrlWrite v
  else if s.busy then s.noteBusy
  else if r = .cmd then s.accept v
  else s.writeReg r v

/-- A host write; a reserved offset ignores it (R52; log 13). -/
def hostWrite (width addr : Nat) (v : Word) (s : State) : Outcome :=
  match s.accessOffset width addr with
  | .error r => .refused r
  | .ok o => match regAt o with
    | none => .next s
    | some r => .next (s.writeRegister r v)

/-- A command that reads the DAG runs (R309). -/
def State.readingDag (s : State) : Bool :=
  match s.running with
  | some i => readsDag i
  | none => false

/-- Another agent writes a byte of DAGMEM; while a command that reads the DAG runs it has no such move
(R309, 60_exceptions.md R291; log 16). -/
def dagWrite (addr : DWord) (byte : Byte) (s : State) : Outcome :=
  if s.readingDag then .fault .dagChangedWhileRead
  else .next { s with dag := s.dag.write addr.toNat byte }

/-- Reset at any time: a running command is abandoned and the block is in the state of R301; CACHE is a
draw per word; the environment and the model's own fields stay (R300; log 20). -/
def State.resetBlock (s : State) : State :=
  { State.reset with
    params := s.params
    dag := s.dag
    cache := tabulate fun j => s.drawFor (.cache j)
    inputs := s.inputs
    rdata := s.rdata
    fresh := s.fresh + 0x1400 }

end Sys2Proof.Machine
end

