-- ==== Sys2Proof/Machine/Dispatch.lean ====
section
/-! DEFINITION. One arm per command: the engine runs its meaning (60_exceptions.md R273). -/

namespace Sys2Proof.Machine

/-- The engine runs command `i` (60_exceptions.md R272, R273). -/
def exec (i : Instr) (s : State) : Host.Outcome State Fault Refusal :=
  match i with
  | .nop => Sys2Proof.Machine.execNop s
  | .fnv1a => Sys2Proof.Machine.execFnv1a s
  | .rotl => Sys2Proof.Machine.execRotl s
  | .rotr => Sys2Proof.Machine.execRotr s
  | .clz => Sys2Proof.Machine.execClz s
  | .popc => Sys2Proof.Machine.execPopc s
  | .umulhi => Sys2Proof.Machine.execUmulhi s
  | .rmath => Sys2Proof.Machine.execRmath s
  | .rmerge => Sys2Proof.Machine.execRmerge s
  | .kissSeed => Sys2Proof.Machine.execKissSeed s
  | .kissNext => Sys2Proof.Machine.execKissNext s
  | .keccakF800 => Sys2Proof.Machine.execKeccakF800 s
  | .keccakRound rnd => Sys2Proof.Machine.execKeccakRound rnd s
  | .seedAbsorb => Sys2Proof.Machine.execSeedAbsorb s
  | .seedExtract => Sys2Proof.Machine.execSeedExtract s
  | .finalAbsorb => Sys2Proof.Machine.execFinalAbsorb s
  | .digestExtract => Sys2Proof.Machine.execDigestExtract s
  | .mixFill => Sys2Proof.Machine.execMixFill s
  | .mixReduce => Sys2Proof.Machine.execMixReduce s
  | .loopSeed arg => Sys2Proof.Machine.execLoopSeed arg s
  | .cacheMix => Sys2Proof.Machine.execCacheMix s
  | .mathMix => Sys2Proof.Machine.execMathMix s
  | .dagMix arg => Sys2Proof.Machine.execDagMix arg s
  | .mixUpdate => Sys2Proof.Machine.execMixUpdate s
  | .loopIter arg => Sys2Proof.Machine.execLoopIter arg s
  | .finalReduce => Sys2Proof.Machine.execFinalReduce s
  | .cacheLoad => Sys2Proof.Machine.execCacheLoad s
  | .hash => Sys2Proof.Machine.execHash s
  | .targetCmp => Sys2Proof.Machine.execTargetCmp s
  | .search => Sys2Proof.Machine.execSearch s

end Sys2Proof.Machine
end

