-- ==== Sys2Proof/Machine/Engine.lean ====
section
/-! DEFINITION. What one event of the total order of 20_memory.md R76 does: the engine's step, a host
access, a change of DAGMEM or a reset. -/

namespace Sys2Proof.Machine

/-- The engine's next step (60_exceptions.md R273): nothing while idle (R290), the accepted command, or
one step of a running SEARCH; `choice` is the event's, or none. -/
def engineStep (choice : Option Nat) (s : State) : Outcome :=
  match s.engine with
  | .idle => .next s
  | .accepted _ => match decode s.cmd with
    | .ok i => exec i s
    | .error _ => illegalCommand s
  | .searching r => match choice with
    | some c => searchStep c r s
    | none => searchStepFree r s

/-- One event happens. -/
def act (e : Event) (s : State) : Outcome :=
  match e with
  | .engine choice => engineStep (some choice) s
  | .hostRead width addr => hostRead width addr s
  | .hostWrite width addr v => hostWrite width addr v s
  | .dagWrite addr byte => dagWrite addr byte s
  | .reset => .next s.resetBlock

/-- The event list without its first event. -/
def State.popInput (rest : List Event) (s : State) : State := { s with inputs := rest }

end Sys2Proof.Machine
end

