-- ==== Sys2Proof/Machine/Step.lean ====
section
/-! DEFINITION. One step of the machine: the next event of the total order of 20_memory.md R76. -/

namespace Sys2Proof.Machine

/-- One step: the first event still to come, or, when there is none, the engine's own next step
(70_reset_and_hazards.md R317, R318; log 6, 18). -/
def step (s : State) : Host.Outcome State Fault Refusal :=
  match s.inputs with
  | [] => engineStep none s
  | e :: rest => act e (s.popInput rest)

/-- `s` with the command word `w` just accepted, as by a host write to CMD (60_exceptions.md R273), and
the engine's step the next event (log 7). -/
def State.withFetchWord (s : State) (nbits w : Nat) : State :=
  { s with
    cmd := BitVec.ofNat 32 (w % 2 ^ nbits)
    done := false
    engine := .accepted false
    inputs := .engine 0 :: s.inputs }

end Sys2Proof.Machine
end

