-- ==== Sys2Proof/WellFormed.lean ====
section
/-! DEFINITION. Which command words are legal (30_encoding.md R96) and which commands carry a field value
in its range (R93). A command with RND above 21 still decodes and still runs: it completes with E_ARG. -/

namespace Sys2Proof

/-- The OP values of the opcode map (R92). -/
def assignedOps : List Nat :=
  [0x00, 0x01, 0x02, 0x03, 0x04, 0x05, 0x06, 0x07, 0x08, 0x10, 0x11] ++
  [0x20, 0x21, 0x22, 0x23, 0x24, 0x25] ++
  [0x30, 0x31, 0x32, 0x33, 0x34, 0x35, 0x36, 0x37, 0x38, 0x40, 0x41, 0x42, 0x43]

/-- The RSV field, bits 15:13, is 000 (R91, R96). -/
def rsvClear (w : Word) : Bool :=
  (w.toNat / 2 ^ 13) % 8 == 0

/-- The OP field, bits 7:0, is a value of the opcode map (R92, R96). -/
def opAssigned (w : Word) : Bool :=
  assignedOps.contains (w.toNat % 2 ^ 8)

/-- A command word is legal: its OP is assigned and its RSV is 000 (R96). -/
def legalWord (w : Word) : Bool :=
  rsvClear w && opAssigned w

/-- A command's field values are in range: KECCAK_ROUND's round index is 0..21 (R93); every value of
every other field is. -/
def Instr.wellFormed : Instr → Bool
  | .keccakRound rnd => decide (rnd.toNat ≤ 21)
  | .nop | .fnv1a | .rotl | .rotr | .clz | .popc | .umulhi | .rmath | .rmerge => true
  | .kissSeed | .kissNext => true
  | .keccakF800 | .seedAbsorb | .seedExtract | .finalAbsorb | .digestExtract => true
  | .mixFill | .mixReduce | .loopSeed _ | .cacheMix | .mathMix | .dagMix _ | .mixUpdate => true
  | .loopIter _ | .finalReduce | .cacheLoad | .hash | .targetCmp | .search => true

end Sys2Proof
end

