-- ==== Sys2Proof/Safety.lean ====
section
/-! DEFINITION. The notions the statements are written in: runs of commands and of steps, a readable DAG,
the state's well-formedness, what a sound search result is, and how much work a search has left. -/

namespace Sys2Proof.Machine

/-- The commands one after another, with nothing between them (70_reset_and_hazards.md R312). -/
def execAll : List Instr → State → Outcome
  | [], s => .next s
  | i :: is, s =>
    match exec i s with
    | .next t => execAll is t
    | .fault r => .fault r
    | .refused r => .refused r

/-- The commands one after another up to the first that does not complete with E_NONE, and what that one
leaves (60_exceptions.md R275: a command ends at the first fault it meets). -/
def execUntilError : List Instr → State → Outcome
  | [], s => .next s
  | i :: is, s =>
    match exec i s with
    | .next t => if t.err = .none then execUntilError is t else .next t
    | .fault r => .fault r
    | .refused r => .refused r

/-- The commands whose bodies LOOP_ITER runs, in order (43_mix.md R198). -/
def loopCommands (arg : BitVec 16) : List Instr :=
  [.mixReduce, .loopSeed arg] ++ List.replicate 11 .cacheMix ++ List.replicate 18 .mathMix ++
    (List.range 64).map (fun i => .dagMix (BitVec.ofNat 16 i)) ++ [.mixUpdate]

/-- The commands whose bodies HASH runs, in order: program P3 (44_search.md R233,
70_reset_and_hazards.md R312). -/
def hashCommands : List Instr :=
  [.cacheLoad, .seedAbsorb, .keccakF800, .seedExtract, .mixFill] ++
    (List.range 64).map (fun j => .loopIter (BitVec.ofNat 16 j)) ++
    [.finalReduce, .finalAbsorb, .keccakF800, .digestExtract, .targetCmp]

/-- `n` steps of the machine, up to one that stops. -/
def stepTimes : Nat → State → Outcome
  | 0, s => .next s
  | n + 1, s =>
    match step s with
    | .next t => stepTimes n t
    | .fault r => .fault r
    | .refused r => .refused r

/-- A word whose OP is `op` and whose RSV is 000 is command `i` (30_encoding.md R92). -/
def Selects (op : Word) (i : Instr) : Prop :=
  ∀ w : Word, w &&& 0x0000E0FF = op → decode w = .ok i

/-- No byte of the DAG window gets a fault (20_memory.md R66, R73). -/
def State.dagClear (s : State) : Prop :=
  ∀ a, s.dagBase.toNat ≤ a → a < s.dagBase.toNat + s.dagSize.toNat →
    dagFault s.params a = false

/-- `v` is the number of 0 bits of `x` from bit 31 down before the first 1 (40_primitives.md R116). -/
def IsLeadingZeros (x v : Word) : Prop :=
  v.toNat ≤ 32 ∧ (∀ i, i < v.toNat → x.getLsbD (31 - i) = false) ∧
    (v.toNat < 32 → x.getLsbD (31 - v.toNat) = true)

/-- `v` is the number of 1 bits of `x` (40_primitives.md R117). -/
def IsPopulation (x v : Word) : Prop :=
  v.toNat = (Finset.univ.filter fun i : Fin 32 => x.getLsbD i.val = true).card

/-- A register the host may write (10_state.md R22, access RW). -/
def Reg.writable : Reg → Bool
  | .id | .param | .ctrl | .status | .cache _ => false
  | _ => true

/-- The commands that use the RND field (30_encoding.md R91, R97). -/
def usesRnd : Instr → Bool
  | .keccakRound _ => true
  | _ => false

/-- The commands that use the ARG field (30_encoding.md R91, R97). -/
def usesArg : Instr → Bool
  | .loopSeed _ | .dagMix _ | .loopIter _ => true
  | _ => false

/-- The outcome codes a command may complete with (60_exceptions.md R272). SEARCH's other codes come at
its completion (44_search.md R243). -/
def mayComplete (i : Instr) (e : Code) : Bool :=
  match e with
  | .none => true
  | .illegal | .busy | .aborted => false
  | .arg => match i with
    | .keccakRound _ => true
    | _ => false
  | .config => readsDag i
  | .noCache => match i with
    | .cacheMix | .loopIter _ => true
    | _ => false
  | .mem => match i with
    | .search => false
    | _ => readsDag i

/-- A running SEARCH's records fit its registers (10_state.md R50, 44_search.md R236): one record a
thread, one flag a group, no thread past its last nonce, the DAG configuration checked, and a loaded
cache unless a DAG read faulted. -/
def Search.wf (s : State) (r : Search) : Prop :=
  r.thr.length = s.threads.toNat ∧
    r.gf.length = groupCount s.threads.toNat s.params.groupSize ∧
    (∀ t, (r.thread t).k ≤ s.npt.toNat) ∧
    s.dagCfgOK = true ∧
    (r.memErr = false → s.cacheValid = true)

/-- The state's well-formedness: DAGMEM in canonical form, and a running SEARCH's records fit. -/
def State.wf (s : State) : Prop :=
  s.dag.wf = true ∧ ∀ r, s.engine = .searching r → Search.wf s r

/-- Nonce `n(t, k)` is one SEARCH may report: its digest is valid and it is not 0 (44_search.md R239,
R244). -/
def State.hitAt (s : State) (t k : Nat) : Prop :=
  ∃ dg fm, kawHash s.hashEnv s.header (s.nonceOf t k) = some (dg, fm) ∧
    isHit (s.nonceOf t k) dg s.target = true

/-- `n(t, k)` is `fv(t)`, thread t's first hit (44_search.md R244). -/
def State.firstHit (s : State) (t k : Nat) : Prop :=
  t < s.threads.toNat ∧ k < s.npt.toNat ∧ s.hitAt t k ∧ ∀ j, j < k → ¬ s.hitAt t j

/-- The result slot of a running SEARCH is sound (44_search.md R244): no live thread has passed a hit, and
after a commit the slot holds some thread's first hit with its own digest and final mix. -/
def State.resultSound (s : State) : Prop :=
  ∀ r, s.engine = .searching r →
    (∀ t, (r.thread t).live = true → ∀ j, j < (r.thread t).k → ¬ s.hitAt t j) ∧
    (s.found = true → ∃ t k, s.firstHit t k ∧ s.rnonce = s.nonceOf t k ∧
      kawHash s.hashEnv s.header s.rnonce = some (s.rhash, s.rmix))

/-- The steps one thread has left at most: its nonces and one exit step (44_search.md R238). -/
def Thread.work (npt : Nat) (th : Thread) : Nat :=
  if th.live then npt - th.k + 1 else 0

/-- The thread steps a SEARCH has left at most (70_reset_and_hazards.md R315). -/
def Search.work (npt : Nat) (r : Search) : Nat :=
  (r.thr.map (Thread.work npt)).sum

/-- The next event is an engine step: an `engine` event, or none queued (log 6). -/
def State.engineNext (s : State) : Prop :=
  s.inputs = [] ∨ ∃ choice rest, s.inputs = .engine choice :: rest

/-- Every event to come is an engine step (log 6): nothing from outside is queued. -/
def State.engineOnly (s : State) : Prop :=
  ∀ e ∈ s.inputs, ∃ choice, e = .engine choice

/-- The registers a host write of which clears CACHE_VALID (10_state.md R34, R35). -/
def Reg.isDagConfig : Reg → Bool
  | .dagBaseLo | .dagBaseHi | .dagSizeLo | .dagSizeHi => true
  | _ => false

/-- Two states equal but for what CACHE holds, and equal in that too once CACHE_VALID = 1. -/
def SameButStaleCache (s t : State) : Prop :=
  t = { s with cache := t.cache } ∧ (s.cacheValid = true → t = s)

end Sys2Proof.Machine
end

