-- ==== Sys2Proof/Certificates/Slice0/Obligations.lean ====
section
/-! DEFINITION. The statements about the model. A statement of a command's result gives the whole next
state: `{ s with … }` says at once what the command writes and that everything else is unchanged, every
byte of DAGMEM among it. -/

open Sys2Proof Sys2Proof.Machine

/-! ### Primitives (40_primitives.md) -/

/-- R111: NOP changes STATUS's completion fields only. -/
def Obligations.NopChangesOnlyStatus : Prop :=
  Selects 0x00 .nop ∧
  ∀ s : State, exec .nop s = .next { s with engine := .idle, done := true, err := .none }

/-- R113 with R112's function written out: RES is `((OPA ^ OPB) * 0x01000193) mod 2^32`. -/
def Obligations.Fnv1aMultipliesXorByPrime : Prop :=
  Selects 0x01 .fnv1a ∧
  ∀ s : State, ∃ v : Word,
    v.toNat = (s.opa ^^^ s.opb).toNat * 0x01000193 % 2 ^ 32 ∧
    exec .fnv1a s = .next { s with res := v, engine := .idle, done := true, err := .none }

/-- R114: RES is the rule's formula, and so bit `i` of RES is bit `(i - OPB) mod 32` of OPA. -/
def Obligations.RotlMovesBitsUp : Prop :=
  Selects 0x02 .rotl ∧
  ∀ s : State, ∃ v : Word,
    v = (if s.opb.toNat % 32 = 0 then s.opa
      else (s.opa <<< (s.opb.toNat % 32)) ||| (s.opa >>> (32 - s.opb.toNat % 32))) ∧
    (∀ i, i < 32 → v.getLsbD i = s.opa.getLsbD ((i + 32 - s.opb.toNat % 32) % 32)) ∧
    exec .rotl s = .next { s with res := v, engine := .idle, done := true, err := .none }

/-- R115: RES is the rule's formula, and so bit `i` of RES is bit `(i + OPB) mod 32` of OPA; it is the
left rotation by `(32 - OPB mod 32) mod 32`. -/
def Obligations.RotrMovesBitsDown : Prop :=
  Selects 0x03 .rotr ∧
  ∀ s : State, ∃ v : Word,
    v = (if s.opb.toNat % 32 = 0 then s.opa
      else (s.opa >>> (s.opb.toNat % 32)) ||| (s.opa <<< (32 - s.opb.toNat % 32))) ∧
    (∀ i, i < 32 → v.getLsbD i = s.opa.getLsbD ((i + s.opb.toNat % 32) % 32)) ∧
    v = rotl32 s.opa ((32 - s.opb.toNat % 32) % 32) ∧
    exec .rotr s = .next { s with res := v, engine := .idle, done := true, err := .none }

/-- R116: RES is the number of leading zeros of OPA, 32 for 0. -/
def Obligations.ClzCountsLeadingZeros : Prop :=
  Selects 0x04 .clz ∧
  ∀ s : State, ∃ v : Word,
    IsLeadingZeros s.opa v ∧ (s.opa = 0 → v = 32) ∧
    exec .clz s = .next { s with res := v, engine := .idle, done := true, err := .none }

/-- R117: RES is the number of 1 bits of OPA. -/
def Obligations.PopcCountsOnes : Prop :=
  Selects 0x05 .popc ∧
  ∀ s : State, ∃ v : Word,
    IsPopulation s.opa v ∧
    exec .popc s = .next { s with res := v, engine := .idle, done := true, err := .none }

/-- R118: RES is the high half of the 64-bit product. -/
def Obligations.UmulhiTakesHighHalf : Prop :=
  Selects 0x06 .umulhi ∧
  ∀ s : State, ∃ v : Word,
    v.toNat = s.opa.toNat * s.opb.toNat / 2 ^ 32 % 2 ^ 32 ∧
    exec .umulhi s = .next { s with res := v, engine := .idle, done := true, err := .none }

/-- R119, R120: RES by the selector `OPC mod 9`. -/
def Obligations.RmathSelectsByOpcModNine : Prop :=
  Selects 0x07 .rmath ∧
  ∀ s : State, ∃ v : Word,
    (match s.opc.toNat % 9 with
      | 0 => v.toNat = (s.opa.toNat + s.opb.toNat) % 2 ^ 32
      | 1 => v.toNat = (2 ^ 32 + s.opa.toNat - s.opb.toNat) % 2 ^ 32
      | 2 => v.toNat = s.opa.toNat * s.opb.toNat % 2 ^ 32
      | 3 => v.toNat = s.opa.toNat * s.opb.toNat / 2 ^ 32
      | 4 => ∀ i, i < 32 → v.getLsbD i = (s.opa.getLsbD i != s.opb.getLsbD i)
      | 5 => ∀ i, i < 32 → v.getLsbD i = s.opa.getLsbD ((i + 32 - s.opb.toNat % 32) % 32)
      | 6 => ∀ i, i < 32 → v.getLsbD i = s.opa.getLsbD ((i + s.opb.toNat % 32) % 32)
      | 7 => IsPopulation s.opa v
      | _ => IsLeadingZeros s.opa v) ∧
    exec .rmath s = .next { s with res := v, engine := .idle, done := true, err := .none }

/-- R121, R122: RES by the selector `OPC mod 5`. -/
def Obligations.RmergeSelectsByOpcModFive : Prop :=
  Selects 0x08 .rmerge ∧
  ∀ s : State, ∃ v : Word,
    (match s.opc.toNat % 5 with
      | 0 => v.toNat = (s.opa.toNat + s.opb.toNat) % 2 ^ 32
      | 1 => v.toNat = s.opa.toNat * s.opb.toNat % 2 ^ 32
      | 2 => ∀ i, i < 32 → v.getLsbD i = (s.opa.getLsbD i && s.opb.getLsbD i)
      | 3 => ∀ i, i < 32 → v.getLsbD i = (s.opa.getLsbD i || s.opb.getLsbD i)
      | _ => ∀ i, i < 32 → v.getLsbD i = (s.opa.getLsbD i != s.opb.getLsbD i)) ∧
    exec .rmerge s = .next { s with res := v, engine := .idle, done := true, err := .none }

/-! ### KISS99 (41_kiss99.md) -/

/-- R142, R143: the chained seeding, each word the FNV-1a of the one before it. -/
def Obligations.KissSeedChainsFnv : Prop :=
  Selects 0x10 .kissSeed ∧
  ∀ s : State, ∃ z w jsr jcong : Word,
    z = (0x811C9DC5 ^^^ s.ctx.seedLo) * 0x01000193 ∧
    w = (z ^^^ s.ctx.seedHi) * 0x01000193 ∧
    jsr = (w ^^^ s.opa) * 0x01000193 ∧
    jcong = (jsr ^^^ (s.opa + 1)) * 0x01000193 ∧
    exec .kissSeed s = .next { s with
      ctx.kiss := ⟨z, w, jsr, jcong⟩, engine := .idle, done := true, err := .none }

/-- R141, R144: the generator's step; the z and w updates never wrap. -/
def Obligations.KissNextStepsGenerator : Prop :=
  Selects 0x11 .kissNext ∧
  ∀ s : State, ∃ z w j₁ j₂ jsr jcong out : Word,
    z.toNat = 36969 * (s.ctx.kiss.z.toNat % 2 ^ 16) + s.ctx.kiss.z.toNat / 2 ^ 16 ∧
    w.toNat = 18000 * (s.ctx.kiss.w.toNat % 2 ^ 16) + s.ctx.kiss.w.toNat / 2 ^ 16 ∧
    j₁ = s.ctx.kiss.jsr ^^^ (s.ctx.kiss.jsr <<< 17) ∧
    j₂ = j₁ ^^^ (j₁ >>> 13) ∧
    jsr = j₂ ^^^ (j₂ <<< 5) ∧
    jcong.toNat = (69069 * s.ctx.kiss.jcong.toNat + 1234567) % 2 ^ 32 ∧
    (s.params.kissCombine = .xor → out = ((z <<< 16) + w) ^^^ jcong ^^^ jsr) ∧
    (s.params.kissCombine = .add → out = (((z <<< 16) + w) ^^^ jcong) + jsr) ∧
    exec .kissNext s = .next { s with
      res := out, ctx.kiss := ⟨z, w, jsr, jcong⟩, engine := .idle, done := true, err := .none }

/-! ### Keccak-f[800] (42_keccak.md) -/

/-- R162 to R166, R169: for RND 0 to 21 KS takes theta, rho+pi, chi and iota; for RND 22 to 31 the
command completes with E_ARG and KS is unchanged. Lane (x, y) is word y * 5 + x. -/
def Obligations.KeccakRoundAppliesFourSteps : Prop :=
  (∀ w : Word, w &&& 0x0000E0FF = 0x21 → decode w = .ok (.keccakRound (w.extractLsb' 8 5))) ∧
  ∀ (rnd : BitVec 5) (s : State),
    (∀ h : rnd.toNat < 22, ∃ (c d : Fin 5 → Word) (a b v : Vector Word 25),
      (∀ x : Fin 5, c x = s.ctx.ks[x.val] ^^^ s.ctx.ks[x.val + 5] ^^^ s.ctx.ks[x.val + 10] ^^^
        s.ctx.ks[x.val + 15] ^^^ s.ctx.ks[x.val + 20]) ∧
      (∀ x : Fin 5, d x = c (x + 4) ^^^ rotl32 (c (x + 1)) 1) ∧
      (∀ x y : Fin 5, a[y.val * 5 + x.val] = s.ctx.ks[y.val * 5 + x.val] ^^^ d x) ∧
      (∀ x y : Fin 5, b[y.val + 5 * ((2 * x.val + 3 * y.val) % 5)] =
        rotl32 a[x.val + 5 * y.val] rhoOffsets[x.val + 5 * y.val]) ∧
      (∀ x y : Fin 5, v[y.val * 5 + x.val] =
        (b[y.val * 5 + x.val] ^^^
          (~~~ b[y.val * 5 + (x.val + 1) % 5] &&& b[y.val * 5 + (x.val + 2) % 5])) ^^^
        (if x = 0 ∧ y = 0 then (roundConstants s.params.rcTable)[rnd.toNat] else 0)) ∧
      exec (.keccakRound rnd) s = .next { s with
        ctx.ks := v, engine := .idle, done := true, err := .none }) ∧
    (22 ≤ rnd.toNat → exec (.keccakRound rnd) s = .next { s with
      engine := .idle, done := true, err := .arg,
      sticky := if s.sticky = .none then .arg else s.sticky })

/-- R163's definition of the rotations: the walk (x, y) to (y, (2x + 3y) mod 5) from (1, 0) meets lane t
with rotation ((t+1)(t+2)/2) mod 32, and lane (0, 0) has rotation 0. R161's round constants: both columns
of its table, and its definition of the STD column, by which bit 2^j - 1 of RC[r] is bit 0 of the LFSR
x^8 + x^6 + x^5 + x^4 + 1 after j + 7r steps, j in 0..5, and every other bit is 0. -/
def Obligations.KeccakTablesFollowWalkAndLfsr : Prop :=
  rhoOffsets[0] = 0 ∧
  (∀ walk : Nat → Fin 5 × Fin 5, walk 0 = (1, 0) →
    (∀ t, walk (t + 1) = ((walk t).2, 2 * (walk t).1 + 3 * (walk t).2)) →
    ∀ t, t < 24 →
      rhoOffsets[(walk t).1.val + 5 * (walk t).2.val] = ((t + 1) * (t + 2) / 2) % 32) ∧
  (roundConstants .doc).toList =
    [0x01, 0x82, 0x808A, 0x8000, 0x808B, 0x80000001, 0x80008081, 0x80008009, 0x8A, 0x88, 0x80008009,
      0x80000008, 0x80008002, 0x80008003, 0x80008002, 0x80000080, 0x800A, 0x8000000A, 0x80008081,
      0x80008080, 0x80000001, 0x80008008] ∧
  (roundConstants .std).toList =
    [0x01, 0x8082, 0x808A, 0x80008000, 0x808B, 0x80000001, 0x80008081, 0x8009, 0x8A, 0x88, 0x80008009,
      0x8000000A, 0x8000808B, 0x8B, 0x8089, 0x8003, 0x8002, 0x80, 0x800A, 0x8000000A, 0x80008081,
      0x8080] ∧
  ∀ lfsr : Nat → BitVec 8, lfsr 0 = 1 →
    (∀ n, lfsr (n + 1) = (lfsr n <<< 1) ^^^ (if (lfsr n).getLsbD 7 then 0b01110001 else 0)) →
    ∀ r : Fin 22,
      (∀ j, j < 6 → (roundConstants .std)[r].getLsbD (2 ^ j - 1) = (lfsr (j + 7 * r.val)).getLsbD 0) ∧
      ∀ i, (∀ j, j < 6 → i ≠ 2 ^ j - 1) → (roundConstants .std)[r].getLsbD i = false

/-- R167, R168 and R169's corner case: KECCAK_F800 writes KS only, and is KECCAK_ROUND 0, 1, ..., 21 run
in order. -/
def Obligations.KeccakF800IsTwentyTwoRounds : Prop :=
  Selects 0x20 .keccakF800 ∧
  ∀ s : State, ∃ v : Vector Word 25,
    exec .keccakF800 s = .next { s with
      ctx.ks := v, engine := .idle, done := true, err := .none } ∧
    execAll ((List.range 22).map fun r => .keccakRound (BitVec.ofNat 5 r)) s = .next { s with
      ctx.ks := v, engine := .idle, done := true, err := .none }

/-- R170: KS is the header, the nonce and zeros. -/
def Obligations.SeedAbsorbPacksHeaderAndNonce : Prop :=
  Selects 0x22 .seedAbsorb ∧
  ∀ s : State, ∃ v : Vector Word 25,
    (∀ i : Fin 8, v[i.val] = s.header[i]) ∧ v[8] = s.nonceLo ∧ v[9] = s.nonceHi ∧
    (∀ i : Fin 25, 10 ≤ i.val → v[i] = 0) ∧
    exec .seedAbsorb s = .next { s with
      ctx.ks := v, engine := .idle, done := true, err := .none }

/-- R171: SEED is KS[0] above KS[1], SKW is KS[0..7]. -/
def Obligations.SeedExtractSplitsState : Prop :=
  Selects 0x23 .seedExtract ∧
  ∀ s : State, ∃ skw : Vector Word 8,
    (∀ i : Fin 8, skw[i] = s.ctx.ks[i.val]) ∧
    exec .seedExtract s = .next { s with
      ctx.seedHi := s.ctx.ks[0], ctx.seedLo := s.ctx.ks[1], ctx.skw := skw,
      engine := .idle, done := true, err := .none }

/-- R172: KS is FM, SKW and zeros. -/
def Obligations.FinalAbsorbPacksMixAndSeed : Prop :=
  Selects 0x24 .finalAbsorb ∧
  ∀ s : State, ∃ v : Vector Word 25,
    (∀ i : Fin 8, v[i.val] = s.ctx.fm[i]) ∧ (∀ i : Fin 8, v[8 + i.val] = s.ctx.skw[i]) ∧
    (∀ i : Fin 25, 16 ≤ i.val → v[i] = 0) ∧
    exec .finalAbsorb s = .next { s with
      ctx.ks := v, engine := .idle, done := true, err := .none }

/-- R173: DG is KS[0..7]. -/
def Obligations.DigestExtractCopiesLowWords : Prop :=
  Selects 0x25 .digestExtract ∧
  ∀ s : State, ∃ dg : Vector Word 8,
    (∀ i : Fin 8, dg[i] = s.ctx.ks[i.val]) ∧
    exec .digestExtract s = .next { s with
      ctx.dg := dg, engine := .idle, done := true, err := .none }

/-! ### Mix pipeline (43_mix.md) -/

/-- R191: LM[l][r] is the (r+1)-th output of the generator seeded with (SEED, l); the KISS registers end
as lane 15's after 32 steps. -/
def Obligations.MixFillFillsLanesInOrder : Prop :=
  Selects 0x30 .mixFill ∧
  ∀ s : State, ∃ lm : Vector (Vector Word 32) 16,
    (∀ (l : Fin 16) (r : Fin 32), lm[l][r] =
      (Kiss.step^[r.val + 1] (kissInit s.ctx.seed (BitVec.ofNat 32 l.val))).output
        s.params.kissCombine) ∧
    exec .mixFill s = .next { s with
      ctx.lm := lm, ctx.kiss := Kiss.step^[32] (kissInit s.ctx.seed 15),
      engine := .idle, done := true, err := .none }

/-- R192: MX[l] is the left fold of fnv1a over lane l, r rising, from FNV_OFFSET_BASIS. -/
def Obligations.MixReduceFoldsEachLane : Prop :=
  Selects 0x31 .mixReduce ∧
  ∀ s : State, ∃ (h : Fin 16 → Nat → Word) (mx : Vector Word 16),
    (∀ l, h l 0 = 0x811C9DC5) ∧
    (∀ (l : Fin 16) (r : Fin 32), h l (r.val + 1) = fnv1a (h l r.val) s.ctx.lm[l][r]) ∧
    (∀ l : Fin 16, mx[l] = h l 32) ∧
    exec .mixReduce s = .next { s with
      ctx.mx := mx, engine := .idle, done := true, err := .none }

/-- R193: LOOP_IDX is ARG, and the KISS registers are kiss_init(SEED, LOOP_IDX). -/
def Obligations.LoopSeedSeedsWithArg : Prop :=
  (∀ w : Word, w &&& 0x0000E0FF = 0x32 → decode w = .ok (.loopSeed (w.extractLsb' 16 16))) ∧
  ∀ (arg : BitVec 16) (s : State), ∃ idx : Word, idx.toNat = arg.toNat ∧
    exec (.loopSeed arg) s = .next { s with
      ctx.loopIdx := idx, ctx.kiss := kissInit s.ctx.seed idx,
      engine := .idle, done := true, err := .none }

/-- R194: without a valid cache E_NOCACHE and nothing else; with one, two draws, the lane first, then
the merge selector, and MX[lane] merged with the cache word it indexes. -/
def Obligations.CacheMixMergesCacheWord : Prop :=
  Selects 0x33 .cacheMix ∧
  ∀ s : State,
    (s.cacheValid = false → exec .cacheMix s = .next { s with
      engine := .idle, done := true, err := .noCache,
      sticky := if s.sticky = .none then .noCache else s.sticky }) ∧
    (s.cacheValid = true → ∃ (lane : Fin 16) (j : Fin 4096) (mx : Vector Word 16),
      lane.val = ((Kiss.step s.ctx.kiss).output s.params.kissCombine).toNat % 16 ∧
      j.val = s.ctx.mx[lane].toNat % 4096 ∧
      mx[lane] = randomMerge s.ctx.mx[lane] s.cache[j]
        ((Kiss.step^[2] s.ctx.kiss).output s.params.kissCombine) ∧
      (∀ l : Fin 16, l ≠ lane → mx[l] = s.ctx.mx[l]) ∧
      exec .cacheMix s = .next { s with
        ctx.mx := mx, ctx.kiss := Kiss.step^[2] s.ctx.kiss,
        engine := .idle, done := true, err := .none })

/-- R195: five draws, for src1, src2, dst, the math selector and the merge selector; only MX[dst]
changes. -/
def Obligations.MathMixDrawsFiveAndMerges : Prop :=
  Selects 0x34 .mathMix ∧
  ∀ s : State, ∃ (draw : Fin 5 → Word) (s₁ s₂ d : Fin 16) (mx : Vector Word 16),
    (∀ i : Fin 5, draw i = (Kiss.step^[i.val + 1] s.ctx.kiss).output s.params.kissCombine) ∧
    s₁.val = (draw 0).toNat % 16 ∧ s₂.val = (draw 1).toNat % 16 ∧ d.val = (draw 2).toNat % 16 ∧
    mx[d] = randomMerge s.ctx.mx[d] (randomMath s.ctx.mx[s₁] s.ctx.mx[s₂] (draw 3)) (draw 4) ∧
    (∀ l : Fin 16, l ≠ d → mx[l] = s.ctx.mx[l]) ∧
    exec .mathMix s = .next { s with
      ctx.mx := mx, ctx.kiss := Kiss.step^[5] s.ctx.kiss,
      engine := .idle, done := true, err := .none }

/-- R196: E_CONFIG when DagCfgOK fails; else, with the item of index
`fnv1a(LOOP_IDX, MX[lane]) mod (DAG_SIZE div 64)`: when none of its 64 bytes gets a fault, word k is
merged into MX[(lane + k) mod 16] with the (k+1)-th draw; when one does, the command completes with E_MEM
and changes nothing else but MX and the KISS registers (and the model's counter of free values). -/
def Obligations.DagMixMergesOneItem : Prop :=
  (∀ w : Word, w &&& 0x0000E0FF = 0x35 → decode w = .ok (.dagMix (w.extractLsb' 16 16))) ∧
  ∀ (arg : BitVec 16) (s : State),
    (s.dagCfgOK = false → exec (.dagMix arg) s = .next { s with
      engine := .idle, done := true, err := .config,
      sticky := if s.sticky = .none then .config else s.sticky }) ∧
    (s.dagCfgOK = true → ∃ (lane : Fin 16) (idx first : Nat),
      lane.val = arg.toNat % 16 ∧
      idx = (fnv1a s.ctx.loopIdx s.ctx.mx[lane]).toNat % (s.dagSize.toNat / 64) ∧
      first = s.dagBase.toNat + 64 * idx ∧
      ((∀ x, first ≤ x → x < first + 64 → dagFault s.params x = false) →
        ∃ mx : Vector Word 16,
          (∀ k : Fin 16, mx[lane + k] = randomMerge s.ctx.mx[lane + k]
            (s.dag.word (first + 4 * k.val))
            ((Kiss.step^[k.val + 1] s.ctx.kiss).output s.params.kissCombine)) ∧
          exec (.dagMix arg) s = .next { s with
            ctx.mx := mx, ctx.kiss := Kiss.step^[16] s.ctx.kiss,
            engine := .idle, done := true, err := .none }) ∧
      (∀ x, first ≤ x → x < first + 64 → dagFault s.params x = true →
        ∃ (mx : Vector Word 16) (kiss : Kiss) (n : Nat),
          exec (.dagMix arg) s = .next { s with
            ctx.mx := mx, ctx.kiss := kiss, engine := .idle, done := true, err := .mem,
            sticky := if s.sticky = .none then .mem else s.sticky, fresh := n }))

/-- R197: every LM[l][r] is FNV-1a mixed with MX[l]. -/
def Obligations.MixUpdateMixesEveryLaneWord : Prop :=
  Selects 0x36 .mixUpdate ∧
  ∀ s : State, ∃ lm : Vector (Vector Word 32) 16,
    (∀ (l : Fin 16) (r : Fin 32), lm[l][r] = (s.ctx.lm[l][r] ^^^ s.ctx.mx[l]) * 0x01000193) ∧
    exec .mixUpdate s = .next { s with
      ctx.lm := lm, engine := .idle, done := true, err := .none }

/-- R198's composition and its corner case: on a readable DAG with a valid cache LOOP_ITER completes and
gives the state of the commands it names, run one by one with nothing between them. -/
def Obligations.LoopIterIsItsCommandsInOrder : Prop :=
  ∀ (arg : BitVec 16) (s : State), s.dagCfgOK = true → s.cacheValid = true → s.dagClear →
    ∃ c : Ctx, c.loopIdx.toNat = arg.toNat ∧
      exec (.loopIter arg) s = .next { s with
        ctx := c, engine := .idle, done := true, err := .none } ∧
      execAll ([.mixReduce, .loopSeed arg] ++ List.replicate 11 .cacheMix ++
          List.replicate 18 .mathMix ++ (List.range 64).map (fun i => .dagMix (BitVec.ofNat 16 i)) ++
          [.mixUpdate]) s =
        exec (.loopIter arg) s

/-- R272, R275, R276 for the commands that read the DAG or the cache: E_CONFIG before E_NOCACHE, and no
state but STATUS changes. -/
def Obligations.ConfigErrorComesFirst : Prop :=
  ∀ (i : Instr) (s : State), readsDag i = true →
    (s.dagCfgOK = false → exec i s = .next { s with
      engine := .idle, done := true, err := .config,
      sticky := if s.sticky = .none then .config else s.sticky }) ∧
    (∀ arg, i = .loopIter arg → s.dagCfgOK = true → s.cacheValid = false →
      exec i s = .next { s with
        engine := .idle, done := true, err := .noCache,
        sticky := if s.sticky = .none then .noCache else s.sticky })

/-- R199: FM[i] folds LM[i][0], then LM[i+8][0], from FNV_OFFSET_BASIS. -/
def Obligations.FinalReduceFoldsRegisterZero : Prop :=
  Selects 0x38 .finalReduce ∧
  ∀ s : State, ∃ fm : Vector Word 8,
    (∀ i : Fin 8, fm[i] =
      fnv1a (fnv1a 0x811C9DC5 s.ctx.lm[i.val][0]) s.ctx.lm[i.val + 8][0]) ∧
    exec .finalReduce s = .next { s with
      ctx.fm := fm, engine := .idle, done := true, err := .none }

/-! ### Hot cache, whole hash, comparison (44_search.md) -/

/-- R231, R69: E_CONFIG when DagCfgOK fails; else, when none of the first 16384 bytes of the DAG gets a
fault, CACHE[j] becomes the little-endian word at DAG_BASE + 4 * j and CACHE_VALID becomes 1; when one
does, the command completes with E_MEM and CACHE_VALID becomes 0, and nothing else changes but CACHE (and
the model's counter of free values). -/
def Obligations.CacheLoadReadsFirstSixteenKiB : Prop :=
  Selects 0x40 .cacheLoad ∧
  ∀ s : State,
    (s.dagCfgOK = false → exec .cacheLoad s = .next { s with
      engine := .idle, done := true, err := .config,
      sticky := if s.sticky = .none then .config else s.sticky }) ∧
    (s.dagCfgOK = true →
      ((∀ x, s.dagBase.toNat ≤ x → x < s.dagBase.toNat + 16384 → dagFault s.params x = false) →
        ∃ words : Vector Word 4096,
          (∀ j : Fin 4096, words[j].toNat =
            (s.dag.read (s.dagBase.toNat + 4 * j.val)).toNat +
            (s.dag.read (s.dagBase.toNat + 4 * j.val + 1)).toNat * 2 ^ 8 +
            (s.dag.read (s.dagBase.toNat + 4 * j.val + 2)).toNat * 2 ^ 16 +
            (s.dag.read (s.dagBase.toNat + 4 * j.val + 3)).toNat * 2 ^ 24) ∧
          exec .cacheLoad s = .next { s with
            cache := words, cacheValid := true, engine := .idle, done := true, err := .none }) ∧
      (∀ x, s.dagBase.toNat ≤ x → x < s.dagBase.toNat + 16384 → dagFault s.params x = true →
        ∃ (words : Vector Word 4096) (n : Nat),
          exec .cacheLoad s = .next { s with
            cache := words, cacheValid := false, engine := .idle, done := true, err := .mem,
            sticky := if s.sticky = .none then .mem else s.sticky, fresh := n }))

/-- R233, R312: on a readable DAG HASH completes with E_NONE and gives the state of the single commands
of program P3 run in order; RES is 1 or 0 as the digest is valid. -/
def Obligations.HashEqualsStepByStepProgram : Prop :=
  ∀ s : State, s.dagCfgOK = true → s.dagClear → ∃ (c : Ctx) (words : Vector Word 4096),
    c.loopIdx = 63 ∧
    exec .hash s = .next { s with
      ctx := c, cache := words, cacheValid := true,
      res := if wordsNat c.dg ≤ wordsNat s.target then 1 else 0,
      engine := .idle, done := true, err := .none } ∧
    execAll ([.cacheLoad, .seedAbsorb, .keccakF800, .seedExtract, .mixFill] ++
        (List.range 64).map (fun j => .loopIter (BitVec.ofNat 16 j)) ++
        [.finalReduce, .finalAbsorb, .keccakF800, .digestExtract, .targetCmp]) s =
      exec .hash s

/-- R232: the hash ends with the same context whatever the starting context held. -/
def Obligations.HashIgnoresStartingContext : Prop :=
  ∀ (env : HashEnv) (header : Vector Word 8) (lo hi : Word) (c c' : Ctx),
    c.runHash env header lo hi = c'.runHash env header lo hi

/-- R233, R246, R232: what HASH leaves in DG and FM is what a search thread's KawHash of the same nonce
gives over the same loaded cache. -/
def Obligations.HashAgreesWithSearchHash : Prop :=
  ∀ s : State, s.dagCfgOK = true → s.dagClear → ∃ t : State,
    exec .hash s = .next t ∧
    kawHash t.hashEnv s.header s.nonce = some (t.ctx.dg, t.ctx.fm)

/-- R234, R235: RES is 1 exactly when the digest integer does not exceed the target integer, else 0;
equivalently the first differing word from index 7 down decides. -/
def Obligations.TargetCmpComparesIntegers : Prop :=
  Selects 0x42 .targetCmp ∧
  ∀ s : State, ∃ v : Word,
    (v = 1 ∨ v = 0) ∧
    (v = 1 ↔ ∑ i : Fin 8, s.ctx.dg[i].toNat * 2 ^ (32 * i.val) ≤
      ∑ i : Fin 8, s.target[i].toNat * 2 ^ (32 * i.val)) ∧
    (v = 1 ↔ s.ctx.dg = s.target ∨ ∃ i : Fin 8, s.ctx.dg[i].toNat < s.target[i].toNat ∧
      ∀ j : Fin 8, i < j → s.ctx.dg[j] = s.target[j]) ∧
    exec .targetCmp s = .next { s with res := v, engine := .idle, done := true, err := .none }

/-- R277, R275 for the commands that take a DAG fault in one step: when E_MEM comes out, every register
outside the command's write set but STATUS keeps its value, and so do DAGMEM and STATUS.FOUND; CACHE_VALID
is 0 after a fault of the preload. (A register inside the write set holds a free value; nothing is said of
it.) When HASH and LOOP_ITER take it (R198, R233): a faulting byte among the first 16384 ends HASH with
E_MEM and CACHE_VALID 0, and each of the two has the outcome that the commands it runs have when they run
one by one up to the first that does not complete with E_NONE (that CACHE_VALID stays 1 after a fault past
HASH's preload sits beside log 11). When DAG_MIX and CACHE_LOAD take it, their own statements say. -/
def Obligations.DagFaultEndsCommandKeepingOthers : Prop :=
  (∀ (i : Instr) (s t : State), exec i s = .next t → t.err = .mem → t.engine = .idle →
    readsDag i = true → s.dagCfgOK = true →
    (∀ r, writeSet i r = false → r ≠ .status → t.readReg r = s.readReg r) ∧
    t.dag = s.dag ∧ t.found = s.found ∧ t.done = true ∧
    (i = .cacheLoad ∨ i = .hash ∧ s.preload = none → t.cacheValid = false)) ∧
  (∀ (s : State) (x : Nat), s.dagCfgOK = true → s.dagBase.toNat ≤ x →
    x < s.dagBase.toNat + 16384 → dagFault s.params x = true →
    ∃ t, exec .hash s = .next t ∧ t.err = .mem ∧ t.cacheValid = false ∧ t.engine = .idle ∧
      t.done = true ∧ t.sticky = (if s.sticky = .none then .mem else s.sticky)) ∧
  (∀ s : State, s.dagCfgOK = true → ∃ t u, exec .hash s = .next t ∧
    execUntilError hashCommands s = .next u ∧ (t.err = .none ∨ t.err = .mem) ∧
    t.err = u.err ∧ t.sticky = u.sticky ∧ t.cacheValid = u.cacheValid) ∧
  ∀ (arg : BitVec 16) (s : State), s.dagCfgOK = true → s.cacheValid = true →
    ∃ t u, exec (.loopIter arg) s = .next t ∧ execUntilError (loopCommands arg) s = .next u ∧
      (t.err = .none ∨ t.err = .mem) ∧ t.err = u.err ∧ t.sticky = u.sticky ∧ t.cacheValid = true

/-! ### Search (44_search.md) -/

/-- R236: at acceptance E_CONFIG when DagCfgOK fails; else FOUND is cleared, the records are made with
every thread live at its nonce 0, every group flag clear and MEMERR clear, and the cache is loaded when
none of the first 16384 bytes of the DAG gets a fault; one that does sets MEMERR and clears CACHE_VALID.
ABORT_REQ is 0 unless CTRL.ABORT was written since the command's acceptance (the model's reading, log 9).
That FOUND is cleared in this step and not in the CMD write is the model's choice (log 23). -/
def Obligations.SearchStartsItsThreads : Prop :=
  Selects 0x43 .search ∧
  ∀ s : State,
    (s.dagCfgOK = false → exec .search s = .next { s with
      engine := .idle, done := true, err := .config,
      sticky := if s.sticky = .none then .config else s.sticky }) ∧
    (s.dagCfgOK = true → ∃ r : Search,
      r.thr = List.replicate s.threads.toNat ⟨0, true⟩ ∧
      (∀ g, g < groupCount s.threads.toNat s.params.groupSize → r.gf[g]? = some false) ∧
      r.abortReq = decide (s.engine = .accepted true) ∧
      ((∀ x, s.dagBase.toNat ≤ x → x < s.dagBase.toNat + 16384 → dagFault s.params x = false) →
        ∃ words : Vector Word 4096,
          (∀ j : Fin 4096, words[j] = s.dag.word (s.dagBase.toNat + 4 * j.val)) ∧
          r.memErr = false ∧
          exec .search s = .next { s with
            found := false, cache := words, cacheValid := true, engine := .searching r }) ∧
      (∀ a, s.dagBase.toNat ≤ a → a < s.dagBase.toNat + 16384 → dagFault s.params a = true →
        r.memErr = true ∧
        exec .search s = .next { s with
          found := false, cacheValid := false, engine := .searching r }))

/-- R238: the choice of the next thread is free: for every live thread there is an event that makes the
engine step it (the event is the model's, log 5). -/
def Obligations.EveryLiveThreadCanStepNext : Prop :=
  ∀ (s : State) (r : Search) (t : Nat), s.engine = .searching r → (r.thread t).live = true →
    ∃ choice, ∀ rest, step { s with inputs := .engine choice :: rest } =
      .next (threadStep t r { s with inputs := rest })

/-- R239: a thread step. It exits after its group's hit, an abort or a fault; else it hashes its next
nonce, and a DAG fault sets MEMERR, a hit commits, sets the group flag and exits, and a miss moves to the
next nonce and exits after the last. -/
def Obligations.ThreadStepFollowsItsNonce : Prop :=
  ∀ (s : State) (r : Search) (t : Nat), t < r.thr.length → (r.thread t).live = true →
    (r.thread t).k < s.npt.toNat → ∀ (g k : Nat) (n : DWord), g = t / s.params.groupSize →
    k = (r.thread t).k → n.toNat = (s.startNonce.toNat + t * s.npt.toNat + k) % 2 ^ 64 →
    ((r.gf[g]? = some true ∨ r.abortReq = true ∨ r.memErr = true) →
      threadStep t r s = s.setEngine (.searching { r with thr := r.thr.set t ⟨k, false⟩ })) ∧
    (r.gf[g]? ≠ some true → r.abortReq = false → r.memErr = false →
      (kawHash s.hashEnv s.header n = none →
        threadStep t r s =
          s.setEngine (.searching { r with thr := r.thr.set t ⟨k, false⟩, memErr := true })) ∧
      (∀ dg fm, kawHash s.hashEnv s.header n = some (dg, fm) →
        (wordsNat dg ≤ wordsNat s.target ∧ n ≠ 0 →
          threadStep t r s = (s.commit n dg fm).setEngine
            (.searching { r with thr := r.thr.set t ⟨k, false⟩, gf := r.gf.set g true })) ∧
        (¬ (wordsNat dg ≤ wordsNat s.target ∧ n ≠ 0) →
          threadStep t r s = s.setEngine (.searching
            { r with thr := r.thr.set t ⟨k + 1, decide (k + 1 ≠ s.npt.toNat)⟩ }))))

/-- R240: a commit writes RNONCE, RHASH, RMIX and FOUND while RNONCE is 0, and has no effect else; so
after a commit of a nonzero nonce no other has an effect. -/
def Obligations.CommitWritesOnceFromZero : Prop :=
  ∀ (s : State) (n : DWord) (dg fm : Vector Word 8),
    (s.rnonceLo = 0 → s.rnonceHi = 0 →
      (s.commit n dg fm).rnonce = n ∧
      s.commit n dg fm = { s with
        rnonceLo := (s.commit n dg fm).rnonceLo, rnonceHi := (s.commit n dg fm).rnonceHi,
        rhash := dg, rmix := fm, found := true }) ∧
    (s.rnonceLo ≠ 0 ∨ s.rnonceHi ≠ 0 → s.commit n dg fm = s) ∧
    (n ≠ 0 → ∀ (n' : DWord) (dg' fm' : Vector Word 8),
      (s.commit n dg fm).commit n' dg' fm' = s.commit n dg fm)

/-- R244 (c) and R236's corner case: while a SEARCH runs, no step but a reset changes the result slot or
FOUND when RNONCE is nonzero, when THREADS = 0 or when NPT = 0 (that a live thread without a nonce exits
is the model's reading, log 10). One step is excepted for RNONCE, RHASH and RMIX: the completion with
E_MEM of a SEARCH that has committed nothing, which leaves draws there (R277; MEMERR = 1, the engine idle
after it, FOUND = 0); that it leaves an RNONCE of 0 as it is is the model's reading (log 12). -/
def Obligations.SearchKeepsNonzeroResult : Prop :=
  ∀ (s t : State) (r : Search), s.engine = .searching r →
    (s.rnonce ≠ 0 ∨ s.wf ∧ s.threads = 0 ∨ s.npt = 0) →
    (∀ rest, s.inputs ≠ .reset :: rest) → step s = .next t →
    t.found = s.found ∧
    (r.memErr = false ∨ t.engine ≠ .idle ∨ s.found = true →
      t.rnonce = s.rnonce ∧ t.rhash = s.rhash ∧ t.rmix = s.rmix) ∧
    (s.rnonce = 0 → t.rnonce = 0)

/-- R244 (b), (d): every step keeps the result slot of a running SEARCH sound: what is committed is the
first hit of some thread, with its own digest and final mix. -/
def Obligations.StepKeepsSearchResultSound : Prop :=
  ∀ s t : State, s.wf → s.resultSound → step s = .next t → t.resultSound

/-- R238, R315: every engine step of a running SEARCH answers a next state that completes it or leaves
less work; with nothing from outside to come the SEARCH is complete after at most its work in thread steps
and one completion step; and a SEARCH starts with at most THREADS * (NPT + 1) thread steps. (That the
engine steps when no event is queued is the model's form of R318's fairness, log 18.) -/
def Obligations.SearchTerminates : Prop :=
  (∀ (s : State) (r : Search), s.engine = .searching r → s.engineNext → ∃ t, step s = .next t ∧
    (t.engine = .idle ∧ t.done = true ∨
      ∃ r', t.engine = .searching r' ∧ r'.work t.npt.toNat < r.work s.npt.toNat)) ∧
  (∀ (s : State) (r : Search), s.engine = .searching r → s.engineOnly →
    ∃ n t, n ≤ r.work s.npt.toNat + 1 ∧ stepTimes n s = .next t ∧ t.engine = .idle ∧
      t.done = true) ∧
  ∀ s : State, s.newSearch.work s.npt.toNat = s.threads.toNat * (s.npt.toNat + 1)

/-- R243, R277: with no live thread the next engine step completes the SEARCH, with E_MEM, else E_ABORTED,
else E_NONE, and nothing changes beside STATUS's completion fields when that is not E_MEM. After E_MEM the
result slot and CACHE (and the model's counter of free values) may change and nothing else; a commit stays
(FOUND = 1, R240). The model's own readings: CACHE_VALID keeps its value, though CACHE's words are draws
after a late fault (log 11), and an RNONCE of 0 stays 0 (log 12). -/
def Obligations.SearchCompletesWithOutcome : Prop :=
  ∀ (s : State) (r : Search), s.engine = .searching r → s.engineNext →
    (∀ t, (r.thread t).live = false) → ∃ u, step s = .next u ∧
      u = { s with
        inputs := s.inputs.tail, engine := .idle, done := true,
        err := if r.memErr then .mem else if r.abortReq then .aborted else .none,
        sticky := if s.sticky = .none then u.err else s.sticky,
        rnonceLo := u.rnonceLo, rnonceHi := u.rnonceHi, rhash := u.rhash, rmix := u.rmix,
        cache := u.cache, fresh := u.fresh } ∧
      (r.memErr = false ∨ s.found = true →
        u.rnonce = s.rnonce ∧ u.rhash = s.rhash ∧ u.rmix = s.rmix) ∧
      (s.rnonce = 0 → u.rnonce = 0) ∧
      (r.memErr = false → u.cache = s.cache)

/-- R246: the engine steps of a SEARCH, from its first to its completion, leave the direct context, RES
and NONCE alone, and the operands HEADER, TARGET, START_NONCE, THREADS, NPT, DAG_BASE and DAG_SIZE too. -/
def Obligations.SearchLeavesDirectContext : Prop :=
  (∀ s t : State, exec .search s = .next t →
    t.ctx = s.ctx ∧ t.res = s.res ∧ t.nonce = s.nonce ∧ t.header = s.header ∧
    t.target = s.target ∧ t.startNonce = s.startNonce ∧ t.threads = s.threads ∧ t.npt = s.npt ∧
    t.dagBase = s.dagBase ∧ t.dagSize = s.dagSize) ∧
  ∀ (s t : State) (r : Search), s.engine = .searching r → s.engineNext → step s = .next t →
    t.ctx = s.ctx ∧ t.res = s.res ∧ t.nonce = s.nonce ∧ t.header = s.header ∧
    t.target = s.target ∧ t.startNonce = s.startNonce ∧ t.threads = s.threads ∧ t.npt = s.npt ∧
    t.dagBase = s.dagBase ∧ t.dagSize = s.dagSize

/-! ### Encoding (30_encoding.md) -/

/-- Decoding an encoded command gives it back, with every field at every value (R91 to R94). -/
def Obligations.DecodeOfEncode : Prop :=
  ∀ i : Instr, decode (encode i) = .ok i

/-- R96: a word decodes to a command exactly when its RSV is 000 and its OP is in the opcode map. -/
def Obligations.DecodesExactlyLegalWords : Prop :=
  ∀ w : Word, (∃ i, decode w = .ok i) ↔ legalWord w = true

/-- R97: a word that differs from a legal one only in fields its command ignores is the same command. -/
def Obligations.IgnoredFieldsDoNotMatter : Prop :=
  ∀ (w w' : Word) (i : Instr), decode w = .ok i → w &&& 0x0000E0FF = w' &&& 0x0000E0FF →
    (usesRnd i = true → rndField w = rndField w') → (usesArg i = true → argField w = argField w') →
    decode w' = .ok i

/-- Words of 95_test_vectors.md B1 and R99 and the commands they stand for. -/
def Obligations.SampleWordsDecode : Prop :=
  decode 0x00000000 = .ok .nop ∧ decode 0x12340001 = .ok .fnv1a ∧
  decode 0x00000011 = .ok .kissNext ∧ decode 0x00000521 = .ok (.keccakRound 5) ∧
  decode 0x003F0032 = .ok (.loopSeed 63) ∧ decode 0xFFFF1F35 = .ok (.dagMix 65535) ∧
  decode 0x003F0037 = .ok (.loopIter 63) ∧ decode 0x00000043 = .ok .search ∧
  decode 0x00002001 = .error (.reservedBits 1) ∧ decode 0x000000FF = .error (.unassignedOp 0xFF)

/-! ### The machine -/

/-- R273: when the engine's step is next and the accepted word decodes to command i, the step is exec of i
(past the consumed event, the model's own, log 6); an illegal word completes with E_ILLEGAL and changes
STATUS only (R96). -/
def Obligations.StepRunsAcceptedCommand : Prop :=
  ∀ (s : State) (abort : Bool), s.engine = .accepted abort → s.engineNext →
    (∀ i, decode s.cmd = .ok i → step s = exec i { s with inputs := s.inputs.tail }) ∧
    (∀ e, decode s.cmd = .error e → step s = .next { s with
      inputs := s.inputs.tail, engine := .idle, done := true, err := .illegal,
      sticky := if s.sticky = .none then .illegal else s.sticky })

/-- R270, R272, R275: every command answers a next state. But for a SEARCH that starts, it is complete,
with an outcome code the command may have. -/
def Obligations.EveryCommandCompletes : Prop :=
  ∀ (i : Instr) (s : State), ∃ t, exec i s = .next t ∧
    (t.engine = .idle ∧ t.done = true ∧ mayComplete i t.err = true ∧
        t.sticky = (if s.sticky = .none then t.err else s.sticky) ∨
      i = .search ∧ ∃ r, t.engine = .searching r)

/-- The state's well-formedness is kept by every step: DAGMEM's canonical form (the model's, log 2) and the
shape of a running SEARCH's records (10_state.md R50). -/
def Obligations.StepKeepsWellFormed : Prop :=
  ∀ s t : State, s.wf → step s = .next t → t.wf

/-- The state after reset is well formed (its memory's form is the model's, log 2), and no SEARCH runs in
it, so that its result is sound. -/
def Obligations.ResetWellFormedAndSound : Prop :=
  State.reset.wf ∧ State.reset.resultSound

/-- R64, R24: no step of the block or the host changes DAGMEM or the parameters; only another agent's
write of one byte does, and it changes that byte alone (the parameters held as data and the write event are
the model's, log 1 and 16). -/
def Obligations.BlockNeverWritesDag : Prop :=
  ∀ s t : State, step s = .next t → t.params = s.params ∧
    ((∀ a b rest, s.inputs ≠ .dagWrite a b :: rest) → t.dag = s.dag) ∧
    (∀ a b rest, s.wf → s.inputs = .dagWrite a b :: rest →
      ∀ x, t.dag.read x = if x = a.toNat then b else s.dag.read x)

/-- U1 of 93_implementation_defined.md: while CACHE_VALID = 0 no step depends on what CACHE holds. Two
states that differ only in it step to states that differ only in it, and not at all once CACHE_VALID = 1. -/
def Obligations.StaleCacheIsNeverUsed : Prop :=
  ∀ (s t : State) (words : Vector Word 4096), s.wf → s.cacheValid = false → step s = .next t →
    ∃ t', step { s with cache := words } = .next t' ∧ SameButStaleCache t t'

/-! ### Host accesses and reset (10_state.md, 60_exceptions.md, 70_reset_and_hazards.md) -/

/-- R22, R52, R61: registers and their offsets are one to one; a reserved offset reads 0 and, while the
block is idle, ignores a write; an access of another width or alignment is refused (log 15). -/
def Obligations.RegisterMapRoundTrip : Prop :=
  (∀ r : Reg, regAt r.offset = some r) ∧ (∀ o r, regAt o = some r → r.offset = o) ∧
  (∀ r : Reg, r.offset % 4 = 0 ∧ r.offset < 0x5000) ∧
  (∀ (s : State) (o : Nat) (v : Word) (rest : List Event), o % 4 = 0 → o < 0x5000 →
    (∀ r : Reg, r.offset ≠ o) →
    (s.inputs = .hostRead 4 (s.params.apBase + o) :: rest →
      step s = .next { s with inputs := rest, rdata := 0 }) ∧
    (s.engine = .idle → s.inputs = .hostWrite 4 (s.params.apBase + o) v :: rest →
      step s = .next { s with inputs := rest })) ∧
  ∀ (s : State) (width addr : Nat) (v : Word) (rest : List Event),
    (width ≠ 4 ∨ s.params.apBase ≤ addr ∧ (addr - s.params.apBase) % 4 ≠ 0) →
    (s.inputs = .hostRead width addr :: rest ∨ s.inputs = .hostWrite width addr v :: rest) →
    ∃ why, step s = .refused why

/-- R24, R26, R271: STATUS is BUSY, DONE, FOUND, CACHE_VALID at bits 0 to 3, ERR at bit 8 and STICKY at
bit 12, every other bit 0; PARAM is RCSEL at bit 0 and KSEL at bit 1, every other bit 0. -/
def Obligations.StatusAndParamLayout : Prop :=
  ∀ (s : State) (number : Code → Nat),
    number .none = 0 → number .illegal = 1 → number .arg = 2 → number .busy = 3 →
    number .config = 4 → number .noCache = 5 → number .mem = 6 → number .aborted = 7 →
    (s.readReg .status).toNat = (if s.engine = .idle then 0 else 1) + 2 * s.done.toNat +
      4 * s.found.toNat + 8 * s.cacheValid.toNat + 256 * number s.err + 4096 * number s.sticky ∧
    (s.readReg .param).toNat = (if s.params.rcTable = .std then 1 else 0) +
      (if s.params.kissCombine = .add then 2 else 0)

/-- Host writes while the block is idle. R27, R273: a write of CMD is the acceptance event, which stores
the word, clears DONE, sets BUSY and does nothing else (that FOUND stays for SEARCH too is the model's
choice, log 23). R22: a write of ID, PARAM, STATUS or CACHE is ignored. R51, R34, R35: a write of a RW
register is the value the next host read of it returns, every other register but STATUS keeps its value,
and STATUS changes in CACHE_VALID only, which a write of DAG_BASE or DAG_SIZE clears (but for CMD, whose
write is the acceptance event). -/
def Obligations.IdleWriteIsReadBack : Prop :=
  (∀ (s : State) (v : Word) (rest : List Event), s.engine = .idle →
    s.inputs = .hostWrite 4 (s.params.apBase + Reg.cmd.offset) v :: rest →
    step s = .next { s with
      inputs := rest, cmd := v, done := false, engine := .accepted false }) ∧
  (∀ (s : State) (r : Reg) (v : Word) (rest : List Event), s.engine = .idle →
    r = .id ∨ r = .param ∨ r = .status ∨ r.isCache = true →
    s.inputs = .hostWrite 4 (s.params.apBase + r.offset) v :: rest →
    step s = .next { s with inputs := rest }) ∧
  ∀ (s : State) (r : Reg) (v : Word) (rest : List Event), s.engine = .idle → r.writable = true →
    ∀ a, a = s.params.apBase + r.offset →
    s.inputs = .hostWrite 4 a v :: .hostRead 4 a :: rest →
    ∃ t u, step s = .next t ∧ step t = .next u ∧ u.rdata = v ∧ u.inputs = rest ∧
      (∀ r', r' ≠ r → r' ≠ .status → t.readReg r' = s.readReg r') ∧
      (r ≠ .cmd → t.engine = .idle ∧ t.done = s.done ∧ t.found = s.found ∧ t.err = s.err ∧
        t.sticky = s.sticky ∧ t.cacheValid = (s.cacheValid && !r.isDagConfig)) ∧
      t.dag = s.dag ∧ t.params = s.params

/-- R53, R279: while a command runs, a host write of any register but CTRL changes nothing but STICKY,
which becomes E_BUSY if it was 0. -/
def Obligations.BusyWriteIsIgnored : Prop :=
  ∀ (s : State) (r : Reg) (v : Word) (rest : List Event), s.engine ≠ .idle → r ≠ .ctrl →
    s.inputs = .hostWrite 4 (s.params.apBase + r.offset) v :: rest →
    step s = .next { s with
      inputs := rest, sticky := if s.sticky = .none then .busy else s.sticky }

/-- R51, R54: a host read of any register while the block is idle, and while a command runs one of a
register outside the command's write set (ID, PARAM, CTRL, STATUS and CMD among them) or of the result
slot, returns its value and changes nothing of the block; CACHE is excepted while CACHE_VALID = 0 (R49).
When a command starts to run is the model's reading, log 19. -/
def Obligations.ReadIsExactOutsideWriteSet : Prop :=
  ∀ (s : State) (r : Reg) (rest : List Event),
    (∀ i, s.running = some i → writeSet i r = false ∨ r.isResult = true) →
    (r.isCache = true → s.cacheValid = true) →
    s.inputs = .hostRead 4 (s.params.apBase + r.offset) :: rest →
    step s = .next { s with inputs := rest, rdata := s.readReg r }

/-- R25, R280: CTRL reads 0; CTRL.CLR_ERR clears STICKY and CTRL.ABORT sets ABORT_REQ of a running SEARCH,
at any time; both act in one write, and neither does anything else. ABORT does nothing while the block is
idle or another command runs. To a SEARCH that is accepted and has not started, ABORT is noted for its
start (the model's reading, log 9). -/
def Obligations.CtrlWriteActs : Prop :=
  (∀ s : State, s.readReg .ctrl = 0) ∧
  ∀ (s : State) (v : Word) (rest : List Event),
    s.inputs = .hostWrite 4 (s.params.apBase + 0x8) v :: rest →
    (s.running ≠ some .search → step s = .next { s with
      inputs := rest, sticky := if v.getLsbD 1 then .none else s.sticky }) ∧
    (∀ r, s.engine = .searching r → step s = .next { s with
      inputs := rest, sticky := if v.getLsbD 1 then .none else s.sticky,
      engine := .searching { r with abortReq := r.abortReq || v.getLsbD 0 } }) ∧
    (∀ abort, s.engine = .accepted abort → s.running = some .search → step s = .next { s with
      inputs := rest, sticky := if v.getLsbD 1 then .none else s.sticky,
      engine := .accepted (abort || v.getLsbD 0) })

/-- R300, R301: after reset, and after a reset event at any time, the engine is idle and every register
but PARAM and CACHE reads 0, but for ID's constant; PARAM reads as the parameters say; the reset event
leaves the DAG and the parameters as they were. -/
def Obligations.ResetGivesStatedRegisters : Prop :=
  State.reset.engine = .idle ∧
  (∀ r : Reg, r ≠ .param → r.isCache = false →
    State.reset.readReg r = (if r = .id then 0x4B415750 else 0)) ∧
  ∀ (s : State) (rest : List Event), s.inputs = .reset :: rest → ∃ t, step s = .next t ∧
    t.engine = .idle ∧ t.dag = s.dag ∧ t.params = s.params ∧ t.inputs = rest ∧
    (∀ r, r ≠ .param → r.isCache = false → t.readReg r = State.reset.readReg r) ∧
    (t.readReg .param).toNat = (if s.params.rcTable = .std then 1 else 0) +
      (if s.params.kissCombine = .add then 2 else 0)
end

