-- ==== Sys2Proof/Laws/Decode.lean ====
section
/-! SUPPORT. The fields of a command word, of a masked one and of an encoded one. -/

namespace Sys2Proof

theorem opField_toNat (w : Word) : (opField w).toNat = w.toNat % 256 := by
  simp [opField]

theorem rndField_toNat (w : Word) : (rndField w).toNat = w.toNat / 256 % 32 := by
  simp [rndField, Nat.shiftRight_eq_div_pow]

theorem rsvField_toNat (w : Word) : (rsvField w).toNat = w.toNat / 8192 % 8 := by
  simp [rsvField, Nat.shiftRight_eq_div_pow]

theorem argField_toNat (w : Word) : (argField w).toNat = w.toNat / 65536 % 65536 := by
  simp [argField, Nat.shiftRight_eq_div_pow]

/-- The mask of the opcode map keeps OP (30_encoding.md R92). -/
theorem opField_masked (w : Word) : opField (w &&& 0x0000E0FF) = opField w := by
  ext i h
  have : i < 8 := h
  interval_cases i <;> simp [opField]

/-- The mask of the opcode map keeps RSV (30_encoding.md R92). -/
theorem rsvField_masked (w : Word) : rsvField (w &&& 0x0000E0FF) = rsvField w := by
  ext i h
  have : i < 3 := h
  interval_cases i <;> simp [rsvField]

/-- A word that the opcode map's mask takes to `op` has that OP and RSV 000 (R92). -/
theorem fields_of_masked {w op : Word} (h : w &&& 0x0000E0FF = op) :
    opField w = opField op ∧ rsvField w = rsvField op := by
  rw [← h, opField_masked, rsvField_masked]
  exact ⟨rfl, rfl⟩

/-- An encoded command as a number (30_encoding.md R99). -/
theorem encode_toNat (i : Instr) :
    (encode i).toNat = i.arg.toNat * 65536 + i.rnd.toNat * 256 + i.op.toNat := by
  have ho := i.op.isLt
  have hr := i.rnd.isLt
  simp only [encode, BitVec.toNat_append, BitVec.toNat_ofNat]
  rw [← Nat.shiftLeft_add_eq_or_of_lt ho, ← Nat.shiftLeft_add_eq_or_of_lt hr,
    ← Nat.shiftLeft_add_eq_or_of_lt (by decide : 0 % 2 ^ 3 < 2 ^ 3)]
  simp only [Nat.shiftLeft_eq]
  omega

theorem opField_encode (i : Instr) : opField (encode i) = i.op := by
  apply BitVec.eq_of_toNat_eq
  have := i.op.isLt
  rw [opField_toNat, encode_toNat]
  omega

theorem rndField_encode (i : Instr) : rndField (encode i) = i.rnd := by
  apply BitVec.eq_of_toNat_eq
  have := i.op.isLt
  have := i.rnd.isLt
  rw [rndField_toNat, encode_toNat]
  omega

theorem rsvField_encode (i : Instr) : rsvField (encode i) = 0 := by
  apply BitVec.eq_of_toNat_eq
  have := i.op.isLt
  have := i.rnd.isLt
  rw [rsvField_toNat, encode_toNat]
  show _ = 0
  omega

theorem argField_encode (i : Instr) : argField (encode i) = i.arg := by
  apply BitVec.eq_of_toNat_eq
  have := i.op.isLt
  have := i.rnd.isLt
  have := i.arg.isLt
  rw [argField_toNat, encode_toNat]
  omega

/-- A word with RSV 000 decodes by its OP, RND and ARG (30_encoding.md R90 to R94). -/
theorem decode_of_rsv {w : Word} (h : rsvField w = 0) :
    decode w = decodeOp (opField w) (rndField w) (argField w) := by
  simp [decode, h]

/-- A word that the opcode map's mask takes to `op`, of RSV 000, decodes by the OP of `op` and its own RND
and ARG (30_encoding.md R92). -/
theorem decode_of_masked {w op : Word} (h : w &&& 0x0000E0FF = op) (hr : rsvField op = 0) :
    decode w = decodeOp (opField op) (rndField w) (argField w) := by
  obtain ⟨ho, hv⟩ := fields_of_masked h
  rw [decode_of_rsv (hv.trans hr), ho]

/-- A command of the opcode map decodes from its OP and its own fields (30_encoding.md R92). -/
theorem decodeOp_fields (i : Instr) : decodeOp i.op i.rnd i.arg = .ok i := by
  cases i <;> rfl

end Sys2Proof
end

