-- ==== Sys2Proof/Laws/Memory.lean ====
section
/-! SUPPORT. DAGMEM: read after write, the canonical form kept, and what a faulting request is. -/

namespace Sys2Proof.Machine

/-- Every listed address is above `a`. -/
def Memory.above (a : Nat) (m : Memory) : Prop := ∀ x ∈ m, a < x.1

theorem Memory.wf_nil : Memory.wf [] = true := rfl

/-- The canonical form, cell by cell. -/
theorem Memory.wf_cons (k : Nat) (b : Byte) (m : Memory) :
    Memory.wf ((k, b) :: m) = true ↔
      Memory.above k m ∧ k < 2 ^ 64 ∧ b ≠ Memory.unlisted ∧ Memory.wf m = true := by
  simp only [Memory.wf, List.pairwise_cons, List.all_cons, Bool.and_eq_true, decide_eq_true_eq,
    Memory.above]
  tauto

theorem Memory.read_above {m : Memory} {a : Nat} (h : Memory.above a m) :
    m.read a = Memory.unlisted := by
  induction m with
  | nil => rfl
  | cons x m ih =>
    have hx := h x (by simp)
    simp only [Memory.read]
    rw [if_neg (by omega)]
    exact ih fun y hy => h y (by simp [hy])

theorem Memory.above_write {m : Memory} {k a : Nat} {b : Byte} (h : Memory.above k m) (ha : k < a) :
    Memory.above k (m.write a b) := by
  induction m with
  | nil =>
    simp only [Memory.write]
    split <;> simp [Memory.above, ha]
  | cons x m ih =>
    have hx := h x (by simp)
    have hm : Memory.above k m := fun y hy => h y (by simp [hy])
    simp only [Memory.write]
    split
    · split <;> intro y hy <;> simp only [List.mem_cons] at hy
      · rcases hy with rfl | hy
        · exact hx
        · exact hm y hy
      · rcases hy with rfl | rfl | hy
        · exact ha
        · exact hx
        · exact hm y hy
    · split
      · split
        · exact hm
        · intro y hy
          rcases List.mem_cons.1 hy with rfl | hy
          · exact ha
          · exact hm y hy
      · intro y hy
        rcases List.mem_cons.1 hy with rfl | hy
        · exact hx
        · exact ih hm y hy

/-- A write keeps the canonical form. -/
theorem Memory.wf_write {m : Memory} {a : Nat} {b : Byte} (h : m.wf = true) (ha : a < 2 ^ 64) :
    (m.write a b).wf = true := by
  induction m with
  | nil =>
    simp only [Memory.write]
    split
    · rfl
    · rename_i hb
      exact (Memory.wf_cons _ _ _).2 ⟨by simp [Memory.above], ha, hb, rfl⟩
  | cons x m ih =>
    obtain ⟨k, c⟩ := x
    obtain ⟨hk, hk64, hc, hm⟩ := (Memory.wf_cons _ _ _).1 h
    simp only [Memory.write]
    split
    · rename_i hlt
      split
      · exact h
      · rename_i hb
        refine (Memory.wf_cons _ _ _).2 ⟨fun y hy => ?_, ha, hb, h⟩
        rcases List.mem_cons.1 hy with rfl | hy
        · exact hlt
        · exact hlt.trans (hk y hy)
    · split
      · rename_i _ heq
        subst heq
        split
        · exact hm
        · rename_i hb
          exact (Memory.wf_cons _ _ _).2 ⟨hk, ha, hb, hm⟩
      · exact (Memory.wf_cons _ _ _).2 ⟨Memory.above_write hk (by omega), hk64, hc, ih hm⟩

/-- A written byte is read back, and every other byte reads as before. -/
theorem Memory.read_write {m : Memory} (h : m.wf = true) (a : Nat) (b : Byte) (x : Nat) :
    (m.write a b).read x = if x = a then b else m.read x := by
  induction m with
  | nil =>
    by_cases hb : b = Memory.unlisted
    · simp [Memory.write, Memory.read, hb]
    · simp only [Memory.write, hb, if_false, Memory.read]
      by_cases hx : x = a
      · simp [hx]
      · simp [hx, Ne.symm hx]
  | cons y m ih =>
    obtain ⟨k, c⟩ := y
    obtain ⟨hk, -, hc, hm⟩ := (Memory.wf_cons _ _ _).1 h
    simp only [Memory.write]
    split
    · rename_i hlt
      have hr : Memory.read ((k, c) :: m) a = Memory.unlisted :=
        Memory.read_above fun y hy => by
          rcases List.mem_cons.1 hy with rfl | hy
          · exact hlt
          · exact hlt.trans (hk y hy)
      split
      · rename_i hb
        by_cases hx : x = a
        · rw [hx, hr, if_pos rfl, hb]
        · rw [if_neg hx]
      · by_cases hx : x = a
        · simp [Memory.read, hx]
        · simp [Memory.read, hx, Ne.symm hx]
    · split
      · rename_i _ heq
        subst heq
        split
        · rename_i hb
          by_cases hx : x = a
          · rw [hx, Memory.read_above hk, if_pos rfl, hb]
          · simp [Memory.read, hx, Ne.symm hx]
        · by_cases hx : x = a
          · simp [Memory.read, hx]
          · simp [Memory.read, hx, Ne.symm hx]
      · rename_i _ hne
        simp only [Memory.read, ih hm]
        by_cases hx : k = x
        · subst hx
          simp [eq_comm, hne]
        · simp [hx]

/-- A request faults exactly when DAG_FAULT holds for one of its bytes (20_memory.md R66). -/
theorem requestFaults_iff (p : Params) (a n : Nat) :
    requestFaults p a n = true ↔ ∃ x, a ≤ x ∧ x < a + n ∧ dagFault p x = true := by
  simp only [requestFaults, dagFault, List.any_eq_true, decide_eq_true_eq, Bool.and_eq_true]
  constructor
  · rintro ⟨r, hr, h⟩
    exact ⟨max a r.lo, by omega, by omega, r, hr, by omega, by omega⟩
  · rintro ⟨x, h₁, h₂, r, hr, h₃, h₄⟩
    exact ⟨r, hr, by omega⟩

/-- A request none of whose bytes faults is answered. -/
theorem requestFaults_false {p : Params} {a n : Nat}
    (h : ∀ x, a ≤ x → x < a + n → dagFault p x = false) : requestFaults p a n = false := by
  rw [Bool.eq_false_iff]
  intro hf
  obtain ⟨x, h₁, h₂, h₃⟩ := (requestFaults_iff p a n).1 hf
  simp [h x h₁ h₂] at h₃

end Sys2Proof.Machine
end

