-- ==== Sys2Proof/Laws/State.lean ====
section
/-! SUPPORT. What each named update of State leaves in each field: one lemma per field per update, true by
rfl, so that no proof unfolds a record update. -/

namespace Sys2Proof.Machine

variable (s : State)

/-! ### setRes -/

@[simp] theorem State.setRes_params (v : Word) : (s.setRes v).params = s.params := rfl
@[simp] theorem State.setRes_dag (v : Word) : (s.setRes v).dag = s.dag := rfl
@[simp] theorem State.setRes_engine (v : Word) : (s.setRes v).engine = s.engine := rfl
@[simp] theorem State.setRes_done (v : Word) : (s.setRes v).done = s.done := rfl
@[simp] theorem State.setRes_found (v : Word) : (s.setRes v).found = s.found := rfl
@[simp] theorem State.setRes_cacheValid (v : Word) : (s.setRes v).cacheValid = s.cacheValid := rfl
@[simp] theorem State.setRes_err (v : Word) : (s.setRes v).err = s.err := rfl
@[simp] theorem State.setRes_sticky (v : Word) : (s.setRes v).sticky = s.sticky := rfl
@[simp] theorem State.setRes_cmd (v : Word) : (s.setRes v).cmd = s.cmd := rfl
@[simp] theorem State.setRes_opa (v : Word) : (s.setRes v).opa = s.opa := rfl
@[simp] theorem State.setRes_opb (v : Word) : (s.setRes v).opb = s.opb := rfl
@[simp] theorem State.setRes_opc (v : Word) : (s.setRes v).opc = s.opc := rfl
@[simp] theorem State.setRes_res (v : Word) : (s.setRes v).res = v := rfl
@[simp] theorem State.setRes_threads (v : Word) : (s.setRes v).threads = s.threads := rfl
@[simp] theorem State.setRes_npt (v : Word) : (s.setRes v).npt = s.npt := rfl
@[simp] theorem State.setRes_nonceLo (v : Word) : (s.setRes v).nonceLo = s.nonceLo := rfl
@[simp] theorem State.setRes_nonceHi (v : Word) : (s.setRes v).nonceHi = s.nonceHi := rfl
@[simp] theorem State.setRes_startLo (v : Word) : (s.setRes v).startLo = s.startLo := rfl
@[simp] theorem State.setRes_startHi (v : Word) : (s.setRes v).startHi = s.startHi := rfl
@[simp] theorem State.setRes_dagBaseLo (v : Word) : (s.setRes v).dagBaseLo = s.dagBaseLo := rfl
@[simp] theorem State.setRes_dagBaseHi (v : Word) : (s.setRes v).dagBaseHi = s.dagBaseHi := rfl
@[simp] theorem State.setRes_dagSizeLo (v : Word) : (s.setRes v).dagSizeLo = s.dagSizeLo := rfl
@[simp] theorem State.setRes_dagSizeHi (v : Word) : (s.setRes v).dagSizeHi = s.dagSizeHi := rfl
@[simp] theorem State.setRes_rnonceLo (v : Word) : (s.setRes v).rnonceLo = s.rnonceLo := rfl
@[simp] theorem State.setRes_rnonceHi (v : Word) : (s.setRes v).rnonceHi = s.rnonceHi := rfl
@[simp] theorem State.setRes_header (v : Word) : (s.setRes v).header = s.header := rfl
@[simp] theorem State.setRes_target (v : Word) : (s.setRes v).target = s.target := rfl
@[simp] theorem State.setRes_rhash (v : Word) : (s.setRes v).rhash = s.rhash := rfl
@[simp] theorem State.setRes_rmix (v : Word) : (s.setRes v).rmix = s.rmix := rfl
@[simp] theorem State.setRes_ctx (v : Word) : (s.setRes v).ctx = s.ctx := rfl
@[simp] theorem State.setRes_cache (v : Word) : (s.setRes v).cache = s.cache := rfl
@[simp] theorem State.setRes_inputs (v : Word) : (s.setRes v).inputs = s.inputs := rfl
@[simp] theorem State.setRes_rdata (v : Word) : (s.setRes v).rdata = s.rdata := rfl
@[simp] theorem State.setRes_fresh (v : Word) : (s.setRes v).fresh = s.fresh := rfl

/-! ### setCtx -/

@[simp] theorem State.setCtx_params (c : Ctx) : (s.setCtx c).params = s.params := rfl
@[simp] theorem State.setCtx_dag (c : Ctx) : (s.setCtx c).dag = s.dag := rfl
@[simp] theorem State.setCtx_engine (c : Ctx) : (s.setCtx c).engine = s.engine := rfl
@[simp] theorem State.setCtx_done (c : Ctx) : (s.setCtx c).done = s.done := rfl
@[simp] theorem State.setCtx_found (c : Ctx) : (s.setCtx c).found = s.found := rfl
@[simp] theorem State.setCtx_cacheValid (c : Ctx) : (s.setCtx c).cacheValid = s.cacheValid := rfl
@[simp] theorem State.setCtx_err (c : Ctx) : (s.setCtx c).err = s.err := rfl
@[simp] theorem State.setCtx_sticky (c : Ctx) : (s.setCtx c).sticky = s.sticky := rfl
@[simp] theorem State.setCtx_cmd (c : Ctx) : (s.setCtx c).cmd = s.cmd := rfl
@[simp] theorem State.setCtx_opa (c : Ctx) : (s.setCtx c).opa = s.opa := rfl
@[simp] theorem State.setCtx_opb (c : Ctx) : (s.setCtx c).opb = s.opb := rfl
@[simp] theorem State.setCtx_opc (c : Ctx) : (s.setCtx c).opc = s.opc := rfl
@[simp] theorem State.setCtx_res (c : Ctx) : (s.setCtx c).res = s.res := rfl
@[simp] theorem State.setCtx_threads (c : Ctx) : (s.setCtx c).threads = s.threads := rfl
@[simp] theorem State.setCtx_npt (c : Ctx) : (s.setCtx c).npt = s.npt := rfl
@[simp] theorem State.setCtx_nonceLo (c : Ctx) : (s.setCtx c).nonceLo = s.nonceLo := rfl
@[simp] theorem State.setCtx_nonceHi (c : Ctx) : (s.setCtx c).nonceHi = s.nonceHi := rfl
@[simp] theorem State.setCtx_startLo (c : Ctx) : (s.setCtx c).startLo = s.startLo := rfl
@[simp] theorem State.setCtx_startHi (c : Ctx) : (s.setCtx c).startHi = s.startHi := rfl
@[simp] theorem State.setCtx_dagBaseLo (c : Ctx) : (s.setCtx c).dagBaseLo = s.dagBaseLo := rfl
@[simp] theorem State.setCtx_dagBaseHi (c : Ctx) : (s.setCtx c).dagBaseHi = s.dagBaseHi := rfl
@[simp] theorem State.setCtx_dagSizeLo (c : Ctx) : (s.setCtx c).dagSizeLo = s.dagSizeLo := rfl
@[simp] theorem State.setCtx_dagSizeHi (c : Ctx) : (s.setCtx c).dagSizeHi = s.dagSizeHi := rfl
@[simp] theorem State.setCtx_rnonceLo (c : Ctx) : (s.setCtx c).rnonceLo = s.rnonceLo := rfl
@[simp] theorem State.setCtx_rnonceHi (c : Ctx) : (s.setCtx c).rnonceHi = s.rnonceHi := rfl
@[simp] theorem State.setCtx_header (c : Ctx) : (s.setCtx c).header = s.header := rfl
@[simp] theorem State.setCtx_target (c : Ctx) : (s.setCtx c).target = s.target := rfl
@[simp] theorem State.setCtx_rhash (c : Ctx) : (s.setCtx c).rhash = s.rhash := rfl
@[simp] theorem State.setCtx_rmix (c : Ctx) : (s.setCtx c).rmix = s.rmix := rfl
@[simp] theorem State.setCtx_ctx (c : Ctx) : (s.setCtx c).ctx = c := rfl
@[simp] theorem State.setCtx_cache (c : Ctx) : (s.setCtx c).cache = s.cache := rfl
@[simp] theorem State.setCtx_inputs (c : Ctx) : (s.setCtx c).inputs = s.inputs := rfl
@[simp] theorem State.setCtx_rdata (c : Ctx) : (s.setCtx c).rdata = s.rdata := rfl
@[simp] theorem State.setCtx_fresh (c : Ctx) : (s.setCtx c).fresh = s.fresh := rfl

/-! ### loadCache -/

@[simp] theorem State.loadCache_params (ws : Vector Word 4096) : (s.loadCache ws).params = s.params := rfl
@[simp] theorem State.loadCache_dag (ws : Vector Word 4096) : (s.loadCache ws).dag = s.dag := rfl
@[simp] theorem State.loadCache_engine (ws : Vector Word 4096) : (s.loadCache ws).engine = s.engine := rfl
@[simp] theorem State.loadCache_done (ws : Vector Word 4096) : (s.loadCache ws).done = s.done := rfl
@[simp] theorem State.loadCache_found (ws : Vector Word 4096) : (s.loadCache ws).found = s.found := rfl
@[simp] theorem State.loadCache_cacheValid (ws : Vector Word 4096) : (s.loadCache ws).cacheValid = true := rfl
@[simp] theorem State.loadCache_err (ws : Vector Word 4096) : (s.loadCache ws).err = s.err := rfl
@[simp] theorem State.loadCache_sticky (ws : Vector Word 4096) : (s.loadCache ws).sticky = s.sticky := rfl
@[simp] theorem State.loadCache_cmd (ws : Vector Word 4096) : (s.loadCache ws).cmd = s.cmd := rfl
@[simp] theorem State.loadCache_opa (ws : Vector Word 4096) : (s.loadCache ws).opa = s.opa := rfl
@[simp] theorem State.loadCache_opb (ws : Vector Word 4096) : (s.loadCache ws).opb = s.opb := rfl
@[simp] theorem State.loadCache_opc (ws : Vector Word 4096) : (s.loadCache ws).opc = s.opc := rfl
@[simp] theorem State.loadCache_res (ws : Vector Word 4096) : (s.loadCache ws).res = s.res := rfl
@[simp] theorem State.loadCache_threads (ws : Vector Word 4096) : (s.loadCache ws).threads = s.threads := rfl
@[simp] theorem State.loadCache_npt (ws : Vector Word 4096) : (s.loadCache ws).npt = s.npt := rfl
@[simp] theorem State.loadCache_nonceLo (ws : Vector Word 4096) : (s.loadCache ws).nonceLo = s.nonceLo := rfl
@[simp] theorem State.loadCache_nonceHi (ws : Vector Word 4096) : (s.loadCache ws).nonceHi = s.nonceHi := rfl
@[simp] theorem State.loadCache_startLo (ws : Vector Word 4096) : (s.loadCache ws).startLo = s.startLo := rfl
@[simp] theorem State.loadCache_startHi (ws : Vector Word 4096) : (s.loadCache ws).startHi = s.startHi := rfl
@[simp] theorem State.loadCache_dagBaseLo (ws : Vector Word 4096) : (s.loadCache ws).dagBaseLo = s.dagBaseLo := rfl
@[simp] theorem State.loadCache_dagBaseHi (ws : Vector Word 4096) : (s.loadCache ws).dagBaseHi = s.dagBaseHi := rfl
@[simp] theorem State.loadCache_dagSizeLo (ws : Vector Word 4096) : (s.loadCache ws).dagSizeLo = s.dagSizeLo := rfl
@[simp] theorem State.loadCache_dagSizeHi (ws : Vector Word 4096) : (s.loadCache ws).dagSizeHi = s.dagSizeHi := rfl
@[simp] theorem State.loadCache_rnonceLo (ws : Vector Word 4096) : (s.loadCache ws).rnonceLo = s.rnonceLo := rfl
@[simp] theorem State.loadCache_rnonceHi (ws : Vector Word 4096) : (s.loadCache ws).rnonceHi = s.rnonceHi := rfl
@[simp] theorem State.loadCache_header (ws : Vector Word 4096) : (s.loadCache ws).header = s.header := rfl
@[simp] theorem State.loadCache_target (ws : Vector Word 4096) : (s.loadCache ws).target = s.target := rfl
@[simp] theorem State.loadCache_rhash (ws : Vector Word 4096) : (s.loadCache ws).rhash = s.rhash := rfl
@[simp] theorem State.loadCache_rmix (ws : Vector Word 4096) : (s.loadCache ws).rmix = s.rmix := rfl
@[simp] theorem State.loadCache_ctx (ws : Vector Word 4096) : (s.loadCache ws).ctx = s.ctx := rfl
@[simp] theorem State.loadCache_cache (ws : Vector Word 4096) : (s.loadCache ws).cache = ws := rfl
@[simp] theorem State.loadCache_inputs (ws : Vector Word 4096) : (s.loadCache ws).inputs = s.inputs := rfl
@[simp] theorem State.loadCache_rdata (ws : Vector Word 4096) : (s.loadCache ws).rdata = s.rdata := rfl
@[simp] theorem State.loadCache_fresh (ws : Vector Word 4096) : (s.loadCache ws).fresh = s.fresh := rfl

/-! ### dropCache -/

@[simp] theorem State.dropCache_params : (s.dropCache).params = s.params := rfl
@[simp] theorem State.dropCache_dag : (s.dropCache).dag = s.dag := rfl
@[simp] theorem State.dropCache_engine : (s.dropCache).engine = s.engine := rfl
@[simp] theorem State.dropCache_done : (s.dropCache).done = s.done := rfl
@[simp] theorem State.dropCache_found : (s.dropCache).found = s.found := rfl
@[simp] theorem State.dropCache_cacheValid : (s.dropCache).cacheValid = false := rfl
@[simp] theorem State.dropCache_err : (s.dropCache).err = s.err := rfl
@[simp] theorem State.dropCache_sticky : (s.dropCache).sticky = s.sticky := rfl
@[simp] theorem State.dropCache_cmd : (s.dropCache).cmd = s.cmd := rfl
@[simp] theorem State.dropCache_opa : (s.dropCache).opa = s.opa := rfl
@[simp] theorem State.dropCache_opb : (s.dropCache).opb = s.opb := rfl
@[simp] theorem State.dropCache_opc : (s.dropCache).opc = s.opc := rfl
@[simp] theorem State.dropCache_res : (s.dropCache).res = s.res := rfl
@[simp] theorem State.dropCache_threads : (s.dropCache).threads = s.threads := rfl
@[simp] theorem State.dropCache_npt : (s.dropCache).npt = s.npt := rfl
@[simp] theorem State.dropCache_nonceLo : (s.dropCache).nonceLo = s.nonceLo := rfl
@[simp] theorem State.dropCache_nonceHi : (s.dropCache).nonceHi = s.nonceHi := rfl
@[simp] theorem State.dropCache_startLo : (s.dropCache).startLo = s.startLo := rfl
@[simp] theorem State.dropCache_startHi : (s.dropCache).startHi = s.startHi := rfl
@[simp] theorem State.dropCache_dagBaseLo : (s.dropCache).dagBaseLo = s.dagBaseLo := rfl
@[simp] theorem State.dropCache_dagBaseHi : (s.dropCache).dagBaseHi = s.dagBaseHi := rfl
@[simp] theorem State.dropCache_dagSizeLo : (s.dropCache).dagSizeLo = s.dagSizeLo := rfl
@[simp] theorem State.dropCache_dagSizeHi : (s.dropCache).dagSizeHi = s.dagSizeHi := rfl
@[simp] theorem State.dropCache_rnonceLo : (s.dropCache).rnonceLo = s.rnonceLo := rfl
@[simp] theorem State.dropCache_rnonceHi : (s.dropCache).rnonceHi = s.rnonceHi := rfl
@[simp] theorem State.dropCache_header : (s.dropCache).header = s.header := rfl
@[simp] theorem State.dropCache_target : (s.dropCache).target = s.target := rfl
@[simp] theorem State.dropCache_rhash : (s.dropCache).rhash = s.rhash := rfl
@[simp] theorem State.dropCache_rmix : (s.dropCache).rmix = s.rmix := rfl
@[simp] theorem State.dropCache_ctx : (s.dropCache).ctx = s.ctx := rfl
@[simp] theorem State.dropCache_cache : (s.dropCache).cache = s.cache := rfl
@[simp] theorem State.dropCache_inputs : (s.dropCache).inputs = s.inputs := rfl
@[simp] theorem State.dropCache_rdata : (s.dropCache).rdata = s.rdata := rfl
@[simp] theorem State.dropCache_fresh : (s.dropCache).fresh = s.fresh := rfl

/-! ### setEngine -/

@[simp] theorem State.setEngine_params (e : Engine) : (s.setEngine e).params = s.params := rfl
@[simp] theorem State.setEngine_dag (e : Engine) : (s.setEngine e).dag = s.dag := rfl
@[simp] theorem State.setEngine_engine (e : Engine) : (s.setEngine e).engine = e := rfl
@[simp] theorem State.setEngine_done (e : Engine) : (s.setEngine e).done = s.done := rfl
@[simp] theorem State.setEngine_found (e : Engine) : (s.setEngine e).found = s.found := rfl
@[simp] theorem State.setEngine_cacheValid (e : Engine) : (s.setEngine e).cacheValid = s.cacheValid := rfl
@[simp] theorem State.setEngine_err (e : Engine) : (s.setEngine e).err = s.err := rfl
@[simp] theorem State.setEngine_sticky (e : Engine) : (s.setEngine e).sticky = s.sticky := rfl
@[simp] theorem State.setEngine_cmd (e : Engine) : (s.setEngine e).cmd = s.cmd := rfl
@[simp] theorem State.setEngine_opa (e : Engine) : (s.setEngine e).opa = s.opa := rfl
@[simp] theorem State.setEngine_opb (e : Engine) : (s.setEngine e).opb = s.opb := rfl
@[simp] theorem State.setEngine_opc (e : Engine) : (s.setEngine e).opc = s.opc := rfl
@[simp] theorem State.setEngine_res (e : Engine) : (s.setEngine e).res = s.res := rfl
@[simp] theorem State.setEngine_threads (e : Engine) : (s.setEngine e).threads = s.threads := rfl
@[simp] theorem State.setEngine_npt (e : Engine) : (s.setEngine e).npt = s.npt := rfl
@[simp] theorem State.setEngine_nonceLo (e : Engine) : (s.setEngine e).nonceLo = s.nonceLo := rfl
@[simp] theorem State.setEngine_nonceHi (e : Engine) : (s.setEngine e).nonceHi = s.nonceHi := rfl
@[simp] theorem State.setEngine_startLo (e : Engine) : (s.setEngine e).startLo = s.startLo := rfl
@[simp] theorem State.setEngine_startHi (e : Engine) : (s.setEngine e).startHi = s.startHi := rfl
@[simp] theorem State.setEngine_dagBaseLo (e : Engine) : (s.setEngine e).dagBaseLo = s.dagBaseLo := rfl
@[simp] theorem State.setEngine_dagBaseHi (e : Engine) : (s.setEngine e).dagBaseHi = s.dagBaseHi := rfl
@[simp] theorem State.setEngine_dagSizeLo (e : Engine) : (s.setEngine e).dagSizeLo = s.dagSizeLo := rfl
@[simp] theorem State.setEngine_dagSizeHi (e : Engine) : (s.setEngine e).dagSizeHi = s.dagSizeHi := rfl
@[simp] theorem State.setEngine_rnonceLo (e : Engine) : (s.setEngine e).rnonceLo = s.rnonceLo := rfl
@[simp] theorem State.setEngine_rnonceHi (e : Engine) : (s.setEngine e).rnonceHi = s.rnonceHi := rfl
@[simp] theorem State.setEngine_header (e : Engine) : (s.setEngine e).header = s.header := rfl
@[simp] theorem State.setEngine_target (e : Engine) : (s.setEngine e).target = s.target := rfl
@[simp] theorem State.setEngine_rhash (e : Engine) : (s.setEngine e).rhash = s.rhash := rfl
@[simp] theorem State.setEngine_rmix (e : Engine) : (s.setEngine e).rmix = s.rmix := rfl
@[simp] theorem State.setEngine_ctx (e : Engine) : (s.setEngine e).ctx = s.ctx := rfl
@[simp] theorem State.setEngine_cache (e : Engine) : (s.setEngine e).cache = s.cache := rfl
@[simp] theorem State.setEngine_inputs (e : Engine) : (s.setEngine e).inputs = s.inputs := rfl
@[simp] theorem State.setEngine_rdata (e : Engine) : (s.setEngine e).rdata = s.rdata := rfl
@[simp] theorem State.setEngine_fresh (e : Engine) : (s.setEngine e).fresh = s.fresh := rfl

/-! ### clearFound -/

@[simp] theorem State.clearFound_params : (s.clearFound).params = s.params := rfl
@[simp] theorem State.clearFound_dag : (s.clearFound).dag = s.dag := rfl
@[simp] theorem State.clearFound_engine : (s.clearFound).engine = s.engine := rfl
@[simp] theorem State.clearFound_done : (s.clearFound).done = s.done := rfl
@[simp] theorem State.clearFound_found : (s.clearFound).found = false := rfl
@[simp] theorem State.clearFound_cacheValid : (s.clearFound).cacheValid = s.cacheValid := rfl
@[simp] theorem State.clearFound_err : (s.clearFound).err = s.err := rfl
@[simp] theorem State.clearFound_sticky : (s.clearFound).sticky = s.sticky := rfl
@[simp] theorem State.clearFound_cmd : (s.clearFound).cmd = s.cmd := rfl
@[simp] theorem State.clearFound_opa : (s.clearFound).opa = s.opa := rfl
@[simp] theorem State.clearFound_opb : (s.clearFound).opb = s.opb := rfl
@[simp] theorem State.clearFound_opc : (s.clearFound).opc = s.opc := rfl
@[simp] theorem State.clearFound_res : (s.clearFound).res = s.res := rfl
@[simp] theorem State.clearFound_threads : (s.clearFound).threads = s.threads := rfl
@[simp] theorem State.clearFound_npt : (s.clearFound).npt = s.npt := rfl
@[simp] theorem State.clearFound_nonceLo : (s.clearFound).nonceLo = s.nonceLo := rfl
@[simp] theorem State.clearFound_nonceHi : (s.clearFound).nonceHi = s.nonceHi := rfl
@[simp] theorem State.clearFound_startLo : (s.clearFound).startLo = s.startLo := rfl
@[simp] theorem State.clearFound_startHi : (s.clearFound).startHi = s.startHi := rfl
@[simp] theorem State.clearFound_dagBaseLo : (s.clearFound).dagBaseLo = s.dagBaseLo := rfl
@[simp] theorem State.clearFound_dagBaseHi : (s.clearFound).dagBaseHi = s.dagBaseHi := rfl
@[simp] theorem State.clearFound_dagSizeLo : (s.clearFound).dagSizeLo = s.dagSizeLo := rfl
@[simp] theorem State.clearFound_dagSizeHi : (s.clearFound).dagSizeHi = s.dagSizeHi := rfl
@[simp] theorem State.clearFound_rnonceLo : (s.clearFound).rnonceLo = s.rnonceLo := rfl
@[simp] theorem State.clearFound_rnonceHi : (s.clearFound).rnonceHi = s.rnonceHi := rfl
@[simp] theorem State.clearFound_header : (s.clearFound).header = s.header := rfl
@[simp] theorem State.clearFound_target : (s.clearFound).target = s.target := rfl
@[simp] theorem State.clearFound_rhash : (s.clearFound).rhash = s.rhash := rfl
@[simp] theorem State.clearFound_rmix : (s.clearFound).rmix = s.rmix := rfl
@[simp] theorem State.clearFound_ctx : (s.clearFound).ctx = s.ctx := rfl
@[simp] theorem State.clearFound_cache : (s.clearFound).cache = s.cache := rfl
@[simp] theorem State.clearFound_inputs : (s.clearFound).inputs = s.inputs := rfl
@[simp] theorem State.clearFound_rdata : (s.clearFound).rdata = s.rdata := rfl
@[simp] theorem State.clearFound_fresh : (s.clearFound).fresh = s.fresh := rfl

/-! ### accept -/

@[simp] theorem State.accept_params (v : Word) : (s.accept v).params = s.params := rfl
@[simp] theorem State.accept_dag (v : Word) : (s.accept v).dag = s.dag := rfl
@[simp] theorem State.accept_engine (v : Word) : (s.accept v).engine = .accepted false := rfl
@[simp] theorem State.accept_done (v : Word) : (s.accept v).done = false := rfl
@[simp] theorem State.accept_found (v : Word) : (s.accept v).found = s.found := rfl
@[simp] theorem State.accept_cacheValid (v : Word) : (s.accept v).cacheValid = s.cacheValid := rfl
@[simp] theorem State.accept_err (v : Word) : (s.accept v).err = s.err := rfl
@[simp] theorem State.accept_sticky (v : Word) : (s.accept v).sticky = s.sticky := rfl
@[simp] theorem State.accept_cmd (v : Word) : (s.accept v).cmd = v := rfl
@[simp] theorem State.accept_opa (v : Word) : (s.accept v).opa = s.opa := rfl
@[simp] theorem State.accept_opb (v : Word) : (s.accept v).opb = s.opb := rfl
@[simp] theorem State.accept_opc (v : Word) : (s.accept v).opc = s.opc := rfl
@[simp] theorem State.accept_res (v : Word) : (s.accept v).res = s.res := rfl
@[simp] theorem State.accept_threads (v : Word) : (s.accept v).threads = s.threads := rfl
@[simp] theorem State.accept_npt (v : Word) : (s.accept v).npt = s.npt := rfl
@[simp] theorem State.accept_nonceLo (v : Word) : (s.accept v).nonceLo = s.nonceLo := rfl
@[simp] theorem State.accept_nonceHi (v : Word) : (s.accept v).nonceHi = s.nonceHi := rfl
@[simp] theorem State.accept_startLo (v : Word) : (s.accept v).startLo = s.startLo := rfl
@[simp] theorem State.accept_startHi (v : Word) : (s.accept v).startHi = s.startHi := rfl
@[simp] theorem State.accept_dagBaseLo (v : Word) : (s.accept v).dagBaseLo = s.dagBaseLo := rfl
@[simp] theorem State.accept_dagBaseHi (v : Word) : (s.accept v).dagBaseHi = s.dagBaseHi := rfl
@[simp] theorem State.accept_dagSizeLo (v : Word) : (s.accept v).dagSizeLo = s.dagSizeLo := rfl
@[simp] theorem State.accept_dagSizeHi (v : Word) : (s.accept v).dagSizeHi = s.dagSizeHi := rfl
@[simp] theorem State.accept_rnonceLo (v : Word) : (s.accept v).rnonceLo = s.rnonceLo := rfl
@[simp] theorem State.accept_rnonceHi (v : Word) : (s.accept v).rnonceHi = s.rnonceHi := rfl
@[simp] theorem State.accept_header (v : Word) : (s.accept v).header = s.header := rfl
@[simp] theorem State.accept_target (v : Word) : (s.accept v).target = s.target := rfl
@[simp] theorem State.accept_rhash (v : Word) : (s.accept v).rhash = s.rhash := rfl
@[simp] theorem State.accept_rmix (v : Word) : (s.accept v).rmix = s.rmix := rfl
@[simp] theorem State.accept_ctx (v : Word) : (s.accept v).ctx = s.ctx := rfl
@[simp] theorem State.accept_cache (v : Word) : (s.accept v).cache = s.cache := rfl
@[simp] theorem State.accept_inputs (v : Word) : (s.accept v).inputs = s.inputs := rfl
@[simp] theorem State.accept_rdata (v : Word) : (s.accept v).rdata = s.rdata := rfl
@[simp] theorem State.accept_fresh (v : Word) : (s.accept v).fresh = s.fresh := rfl

/-! ### complete -/

@[simp] theorem State.complete_params (e : Code) : (s.complete e).params = s.params := rfl
@[simp] theorem State.complete_dag (e : Code) : (s.complete e).dag = s.dag := rfl
@[simp] theorem State.complete_engine (e : Code) : (s.complete e).engine = .idle := rfl
@[simp] theorem State.complete_done (e : Code) : (s.complete e).done = true := rfl
@[simp] theorem State.complete_found (e : Code) : (s.complete e).found = s.found := rfl
@[simp] theorem State.complete_cacheValid (e : Code) : (s.complete e).cacheValid = s.cacheValid := rfl
@[simp] theorem State.complete_err (e : Code) : (s.complete e).err = e := rfl
@[simp] theorem State.complete_sticky (e : Code) : (s.complete e).sticky = e.record s.sticky := rfl
@[simp] theorem State.complete_cmd (e : Code) : (s.complete e).cmd = s.cmd := rfl
@[simp] theorem State.complete_opa (e : Code) : (s.complete e).opa = s.opa := rfl
@[simp] theorem State.complete_opb (e : Code) : (s.complete e).opb = s.opb := rfl
@[simp] theorem State.complete_opc (e : Code) : (s.complete e).opc = s.opc := rfl
@[simp] theorem State.complete_res (e : Code) : (s.complete e).res = s.res := rfl
@[simp] theorem State.complete_threads (e : Code) : (s.complete e).threads = s.threads := rfl
@[simp] theorem State.complete_npt (e : Code) : (s.complete e).npt = s.npt := rfl
@[simp] theorem State.complete_nonceLo (e : Code) : (s.complete e).nonceLo = s.nonceLo := rfl
@[simp] theorem State.complete_nonceHi (e : Code) : (s.complete e).nonceHi = s.nonceHi := rfl
@[simp] theorem State.complete_startLo (e : Code) : (s.complete e).startLo = s.startLo := rfl
@[simp] theorem State.complete_startHi (e : Code) : (s.complete e).startHi = s.startHi := rfl
@[simp] theorem State.complete_dagBaseLo (e : Code) : (s.complete e).dagBaseLo = s.dagBaseLo := rfl
@[simp] theorem State.complete_dagBaseHi (e : Code) : (s.complete e).dagBaseHi = s.dagBaseHi := rfl
@[simp] theorem State.complete_dagSizeLo (e : Code) : (s.complete e).dagSizeLo = s.dagSizeLo := rfl
@[simp] theorem State.complete_dagSizeHi (e : Code) : (s.complete e).dagSizeHi = s.dagSizeHi := rfl
@[simp] theorem State.complete_rnonceLo (e : Code) : (s.complete e).rnonceLo = s.rnonceLo := rfl
@[simp] theorem State.complete_rnonceHi (e : Code) : (s.complete e).rnonceHi = s.rnonceHi := rfl
@[simp] theorem State.complete_header (e : Code) : (s.complete e).header = s.header := rfl
@[simp] theorem State.complete_target (e : Code) : (s.complete e).target = s.target := rfl
@[simp] theorem State.complete_rhash (e : Code) : (s.complete e).rhash = s.rhash := rfl
@[simp] theorem State.complete_rmix (e : Code) : (s.complete e).rmix = s.rmix := rfl
@[simp] theorem State.complete_ctx (e : Code) : (s.complete e).ctx = s.ctx := rfl
@[simp] theorem State.complete_cache (e : Code) : (s.complete e).cache = s.cache := rfl
@[simp] theorem State.complete_inputs (e : Code) : (s.complete e).inputs = s.inputs := rfl
@[simp] theorem State.complete_rdata (e : Code) : (s.complete e).rdata = s.rdata := rfl
@[simp] theorem State.complete_fresh (e : Code) : (s.complete e).fresh = s.fresh := rfl

/-! ### noteBusy -/

@[simp] theorem State.noteBusy_params : (s.noteBusy).params = s.params := rfl
@[simp] theorem State.noteBusy_dag : (s.noteBusy).dag = s.dag := rfl
@[simp] theorem State.noteBusy_engine : (s.noteBusy).engine = s.engine := rfl
@[simp] theorem State.noteBusy_done : (s.noteBusy).done = s.done := rfl
@[simp] theorem State.noteBusy_found : (s.noteBusy).found = s.found := rfl
@[simp] theorem State.noteBusy_cacheValid : (s.noteBusy).cacheValid = s.cacheValid := rfl
@[simp] theorem State.noteBusy_err : (s.noteBusy).err = s.err := rfl
@[simp] theorem State.noteBusy_sticky : (s.noteBusy).sticky = Code.record .busy s.sticky := rfl
@[simp] theorem State.noteBusy_cmd : (s.noteBusy).cmd = s.cmd := rfl
@[simp] theorem State.noteBusy_opa : (s.noteBusy).opa = s.opa := rfl
@[simp] theorem State.noteBusy_opb : (s.noteBusy).opb = s.opb := rfl
@[simp] theorem State.noteBusy_opc : (s.noteBusy).opc = s.opc := rfl
@[simp] theorem State.noteBusy_res : (s.noteBusy).res = s.res := rfl
@[simp] theorem State.noteBusy_threads : (s.noteBusy).threads = s.threads := rfl
@[simp] theorem State.noteBusy_npt : (s.noteBusy).npt = s.npt := rfl
@[simp] theorem State.noteBusy_nonceLo : (s.noteBusy).nonceLo = s.nonceLo := rfl
@[simp] theorem State.noteBusy_nonceHi : (s.noteBusy).nonceHi = s.nonceHi := rfl
@[simp] theorem State.noteBusy_startLo : (s.noteBusy).startLo = s.startLo := rfl
@[simp] theorem State.noteBusy_startHi : (s.noteBusy).startHi = s.startHi := rfl
@[simp] theorem State.noteBusy_dagBaseLo : (s.noteBusy).dagBaseLo = s.dagBaseLo := rfl
@[simp] theorem State.noteBusy_dagBaseHi : (s.noteBusy).dagBaseHi = s.dagBaseHi := rfl
@[simp] theorem State.noteBusy_dagSizeLo : (s.noteBusy).dagSizeLo = s.dagSizeLo := rfl
@[simp] theorem State.noteBusy_dagSizeHi : (s.noteBusy).dagSizeHi = s.dagSizeHi := rfl
@[simp] theorem State.noteBusy_rnonceLo : (s.noteBusy).rnonceLo = s.rnonceLo := rfl
@[simp] theorem State.noteBusy_rnonceHi : (s.noteBusy).rnonceHi = s.rnonceHi := rfl
@[simp] theorem State.noteBusy_header : (s.noteBusy).header = s.header := rfl
@[simp] theorem State.noteBusy_target : (s.noteBusy).target = s.target := rfl
@[simp] theorem State.noteBusy_rhash : (s.noteBusy).rhash = s.rhash := rfl
@[simp] theorem State.noteBusy_rmix : (s.noteBusy).rmix = s.rmix := rfl
@[simp] theorem State.noteBusy_ctx : (s.noteBusy).ctx = s.ctx := rfl
@[simp] theorem State.noteBusy_cache : (s.noteBusy).cache = s.cache := rfl
@[simp] theorem State.noteBusy_inputs : (s.noteBusy).inputs = s.inputs := rfl
@[simp] theorem State.noteBusy_rdata : (s.noteBusy).rdata = s.rdata := rfl
@[simp] theorem State.noteBusy_fresh : (s.noteBusy).fresh = s.fresh := rfl

/-! ### clearErr -/

@[simp] theorem State.clearErr_params : (s.clearErr).params = s.params := rfl
@[simp] theorem State.clearErr_dag : (s.clearErr).dag = s.dag := rfl
@[simp] theorem State.clearErr_engine : (s.clearErr).engine = s.engine := rfl
@[simp] theorem State.clearErr_done : (s.clearErr).done = s.done := rfl
@[simp] theorem State.clearErr_found : (s.clearErr).found = s.found := rfl
@[simp] theorem State.clearErr_cacheValid : (s.clearErr).cacheValid = s.cacheValid := rfl
@[simp] theorem State.clearErr_err : (s.clearErr).err = s.err := rfl
@[simp] theorem State.clearErr_sticky : (s.clearErr).sticky = .none := rfl
@[simp] theorem State.clearErr_cmd : (s.clearErr).cmd = s.cmd := rfl
@[simp] theorem State.clearErr_opa : (s.clearErr).opa = s.opa := rfl
@[simp] theorem State.clearErr_opb : (s.clearErr).opb = s.opb := rfl
@[simp] theorem State.clearErr_opc : (s.clearErr).opc = s.opc := rfl
@[simp] theorem State.clearErr_res : (s.clearErr).res = s.res := rfl
@[simp] theorem State.clearErr_threads : (s.clearErr).threads = s.threads := rfl
@[simp] theorem State.clearErr_npt : (s.clearErr).npt = s.npt := rfl
@[simp] theorem State.clearErr_nonceLo : (s.clearErr).nonceLo = s.nonceLo := rfl
@[simp] theorem State.clearErr_nonceHi : (s.clearErr).nonceHi = s.nonceHi := rfl
@[simp] theorem State.clearErr_startLo : (s.clearErr).startLo = s.startLo := rfl
@[simp] theorem State.clearErr_startHi : (s.clearErr).startHi = s.startHi := rfl
@[simp] theorem State.clearErr_dagBaseLo : (s.clearErr).dagBaseLo = s.dagBaseLo := rfl
@[simp] theorem State.clearErr_dagBaseHi : (s.clearErr).dagBaseHi = s.dagBaseHi := rfl
@[simp] theorem State.clearErr_dagSizeLo : (s.clearErr).dagSizeLo = s.dagSizeLo := rfl
@[simp] theorem State.clearErr_dagSizeHi : (s.clearErr).dagSizeHi = s.dagSizeHi := rfl
@[simp] theorem State.clearErr_rnonceLo : (s.clearErr).rnonceLo = s.rnonceLo := rfl
@[simp] theorem State.clearErr_rnonceHi : (s.clearErr).rnonceHi = s.rnonceHi := rfl
@[simp] theorem State.clearErr_header : (s.clearErr).header = s.header := rfl
@[simp] theorem State.clearErr_target : (s.clearErr).target = s.target := rfl
@[simp] theorem State.clearErr_rhash : (s.clearErr).rhash = s.rhash := rfl
@[simp] theorem State.clearErr_rmix : (s.clearErr).rmix = s.rmix := rfl
@[simp] theorem State.clearErr_ctx : (s.clearErr).ctx = s.ctx := rfl
@[simp] theorem State.clearErr_cache : (s.clearErr).cache = s.cache := rfl
@[simp] theorem State.clearErr_inputs : (s.clearErr).inputs = s.inputs := rfl
@[simp] theorem State.clearErr_rdata : (s.clearErr).rdata = s.rdata := rfl
@[simp] theorem State.clearErr_fresh : (s.clearErr).fresh = s.fresh := rfl

/-! ### popInput -/

@[simp] theorem State.popInput_params (es : List Event) : (s.popInput es).params = s.params := rfl
@[simp] theorem State.popInput_dag (es : List Event) : (s.popInput es).dag = s.dag := rfl
@[simp] theorem State.popInput_engine (es : List Event) : (s.popInput es).engine = s.engine := rfl
@[simp] theorem State.popInput_done (es : List Event) : (s.popInput es).done = s.done := rfl
@[simp] theorem State.popInput_found (es : List Event) : (s.popInput es).found = s.found := rfl
@[simp] theorem State.popInput_cacheValid (es : List Event) : (s.popInput es).cacheValid = s.cacheValid := rfl
@[simp] theorem State.popInput_err (es : List Event) : (s.popInput es).err = s.err := rfl
@[simp] theorem State.popInput_sticky (es : List Event) : (s.popInput es).sticky = s.sticky := rfl
@[simp] theorem State.popInput_cmd (es : List Event) : (s.popInput es).cmd = s.cmd := rfl
@[simp] theorem State.popInput_opa (es : List Event) : (s.popInput es).opa = s.opa := rfl
@[simp] theorem State.popInput_opb (es : List Event) : (s.popInput es).opb = s.opb := rfl
@[simp] theorem State.popInput_opc (es : List Event) : (s.popInput es).opc = s.opc := rfl
@[simp] theorem State.popInput_res (es : List Event) : (s.popInput es).res = s.res := rfl
@[simp] theorem State.popInput_threads (es : List Event) : (s.popInput es).threads = s.threads := rfl
@[simp] theorem State.popInput_npt (es : List Event) : (s.popInput es).npt = s.npt := rfl
@[simp] theorem State.popInput_nonceLo (es : List Event) : (s.popInput es).nonceLo = s.nonceLo := rfl
@[simp] theorem State.popInput_nonceHi (es : List Event) : (s.popInput es).nonceHi = s.nonceHi := rfl
@[simp] theorem State.popInput_startLo (es : List Event) : (s.popInput es).startLo = s.startLo := rfl
@[simp] theorem State.popInput_startHi (es : List Event) : (s.popInput es).startHi = s.startHi := rfl
@[simp] theorem State.popInput_dagBaseLo (es : List Event) : (s.popInput es).dagBaseLo = s.dagBaseLo := rfl
@[simp] theorem State.popInput_dagBaseHi (es : List Event) : (s.popInput es).dagBaseHi = s.dagBaseHi := rfl
@[simp] theorem State.popInput_dagSizeLo (es : List Event) : (s.popInput es).dagSizeLo = s.dagSizeLo := rfl
@[simp] theorem State.popInput_dagSizeHi (es : List Event) : (s.popInput es).dagSizeHi = s.dagSizeHi := rfl
@[simp] theorem State.popInput_rnonceLo (es : List Event) : (s.popInput es).rnonceLo = s.rnonceLo := rfl
@[simp] theorem State.popInput_rnonceHi (es : List Event) : (s.popInput es).rnonceHi = s.rnonceHi := rfl
@[simp] theorem State.popInput_header (es : List Event) : (s.popInput es).header = s.header := rfl
@[simp] theorem State.popInput_target (es : List Event) : (s.popInput es).target = s.target := rfl
@[simp] theorem State.popInput_rhash (es : List Event) : (s.popInput es).rhash = s.rhash := rfl
@[simp] theorem State.popInput_rmix (es : List Event) : (s.popInput es).rmix = s.rmix := rfl
@[simp] theorem State.popInput_ctx (es : List Event) : (s.popInput es).ctx = s.ctx := rfl
@[simp] theorem State.popInput_cache (es : List Event) : (s.popInput es).cache = s.cache := rfl
@[simp] theorem State.popInput_inputs (es : List Event) : (s.popInput es).inputs = es := rfl
@[simp] theorem State.popInput_rdata (es : List Event) : (s.popInput es).rdata = s.rdata := rfl
@[simp] theorem State.popInput_fresh (es : List Event) : (s.popInput es).fresh = s.fresh := rfl

/-! ### clobber -/

@[simp] theorem State.clobber_params (ws : Reg → Bool) : (s.clobber ws).params = s.params := rfl
@[simp] theorem State.clobber_dag (ws : Reg → Bool) : (s.clobber ws).dag = s.dag := rfl
@[simp] theorem State.clobber_engine (ws : Reg → Bool) : (s.clobber ws).engine = s.engine := rfl
@[simp] theorem State.clobber_done (ws : Reg → Bool) : (s.clobber ws).done = s.done := rfl
@[simp] theorem State.clobber_found (ws : Reg → Bool) : (s.clobber ws).found = s.found := rfl
@[simp] theorem State.clobber_cacheValid (ws : Reg → Bool) : (s.clobber ws).cacheValid = s.cacheValid := rfl
@[simp] theorem State.clobber_err (ws : Reg → Bool) : (s.clobber ws).err = s.err := rfl
@[simp] theorem State.clobber_sticky (ws : Reg → Bool) : (s.clobber ws).sticky = s.sticky := rfl
@[simp] theorem State.clobber_cmd (ws : Reg → Bool) : (s.clobber ws).cmd = s.cmd := rfl
@[simp] theorem State.clobber_opa (ws : Reg → Bool) : (s.clobber ws).opa = s.opa := rfl
@[simp] theorem State.clobber_opb (ws : Reg → Bool) : (s.clobber ws).opb = s.opb := rfl
@[simp] theorem State.clobber_opc (ws : Reg → Bool) : (s.clobber ws).opc = s.opc := rfl
@[simp] theorem State.clobber_res (ws : Reg → Bool) : (s.clobber ws).res = s.drawOrKeep ws .res := rfl
@[simp] theorem State.clobber_threads (ws : Reg → Bool) : (s.clobber ws).threads = s.threads := rfl
@[simp] theorem State.clobber_npt (ws : Reg → Bool) : (s.clobber ws).npt = s.npt := rfl
@[simp] theorem State.clobber_nonceLo (ws : Reg → Bool) : (s.clobber ws).nonceLo = s.nonceLo := rfl
@[simp] theorem State.clobber_nonceHi (ws : Reg → Bool) : (s.clobber ws).nonceHi = s.nonceHi := rfl
@[simp] theorem State.clobber_startLo (ws : Reg → Bool) : (s.clobber ws).startLo = s.startLo := rfl
@[simp] theorem State.clobber_startHi (ws : Reg → Bool) : (s.clobber ws).startHi = s.startHi := rfl
@[simp] theorem State.clobber_dagBaseLo (ws : Reg → Bool) : (s.clobber ws).dagBaseLo = s.dagBaseLo := rfl
@[simp] theorem State.clobber_dagBaseHi (ws : Reg → Bool) : (s.clobber ws).dagBaseHi = s.dagBaseHi := rfl
@[simp] theorem State.clobber_dagSizeLo (ws : Reg → Bool) : (s.clobber ws).dagSizeLo = s.dagSizeLo := rfl
@[simp] theorem State.clobber_dagSizeHi (ws : Reg → Bool) : (s.clobber ws).dagSizeHi = s.dagSizeHi := rfl
@[simp] theorem State.clobber_rnonceLo (ws : Reg → Bool) : (s.clobber ws).rnonceLo = s.drawOrKeep ws .rnonceLo := rfl
@[simp] theorem State.clobber_rnonceHi (ws : Reg → Bool) : (s.clobber ws).rnonceHi = s.drawOrKeep ws .rnonceHi := rfl
@[simp] theorem State.clobber_header (ws : Reg → Bool) : (s.clobber ws).header = s.header := rfl
@[simp] theorem State.clobber_target (ws : Reg → Bool) : (s.clobber ws).target = s.target := rfl
@[simp] theorem State.clobber_rhash (ws : Reg → Bool) : (s.clobber ws).rhash = tabulate fun i => s.drawOrKeep ws (.rhash i) := rfl
@[simp] theorem State.clobber_rmix (ws : Reg → Bool) : (s.clobber ws).rmix = tabulate fun i => s.drawOrKeep ws (.rmix i) := rfl
@[simp] theorem State.clobber_ctx (ws : Reg → Bool) : (s.clobber ws).ctx = s.drawnCtx ws := rfl
@[simp] theorem State.clobber_cache (ws : Reg → Bool) : (s.clobber ws).cache = tabulate fun j => s.drawOrKeep ws (.cache j) := rfl
@[simp] theorem State.clobber_inputs (ws : Reg → Bool) : (s.clobber ws).inputs = s.inputs := rfl
@[simp] theorem State.clobber_rdata (ws : Reg → Bool) : (s.clobber ws).rdata = s.rdata := rfl
@[simp] theorem State.clobber_fresh (ws : Reg → Bool) : (s.clobber ws).fresh = s.fresh + 0x1400 := rfl

end Sys2Proof.Machine
end

