-- ==== Sys2Proof/Laws/Word.lean ====
section
/-! SUPPORT. What `tabulate` and the register-pair views give back. -/

namespace Sys2Proof

@[simp] theorem tabulate_getElem {α : Type} {n : Nat} (f : Fin n → α) (i : Nat) (h : i < n) :
    (tabulate f)[i] = f ⟨i, h⟩ := by
  simp [tabulate]

/-- Two tabulated arrays are equal when their functions agree. -/
theorem tabulate_congr {α : Type} {n : Nat} {f g : Fin n → α} (h : ∀ i, f i = g i) :
    tabulate f = tabulate g := by
  rw [funext h]

/-- An array is the tabulation of its own elements. -/
theorem tabulate_self {α : Type} {n : Nat} (v : Vector α n) : (tabulate fun i => v[i]) = v := by
  ext i h
  simp

namespace Machine

theorem pair_toNat (hi lo : Word) : (pair hi lo).toNat = hi.toNat * 2 ^ 32 + lo.toNat := by
  have h : (pair hi lo).toNat = hi.toNat <<< 32 ||| lo.toNat := BitVec.toNat_append hi lo
  rw [h, ← Nat.shiftLeft_add_eq_or_of_lt lo.isLt, Nat.shiftLeft_eq]

theorem lo32_toNat (v : DWord) : (lo32 v).toNat = v.toNat % 2 ^ 32 := by
  simp [lo32]

theorem hi32_toNat (v : DWord) : (hi32 v).toNat = v.toNat / 2 ^ 32 := by
  have := v.isLt
  simp only [hi32, BitVec.extractLsb'_toNat, Nat.shiftRight_eq_div_pow]
  omega

@[simp] theorem lo32_pair (hi lo : Word) : lo32 (pair hi lo) = lo := by
  apply BitVec.eq_of_toNat_eq
  have := lo.isLt
  rw [lo32_toNat, pair_toNat]
  omega

@[simp] theorem hi32_pair (hi lo : Word) : hi32 (pair hi lo) = hi := by
  apply BitVec.eq_of_toNat_eq
  have := lo.isLt
  rw [hi32_toNat, pair_toNat]
  omega

@[simp] theorem pair_hi32_lo32 (v : DWord) : pair (hi32 v) (lo32 v) = v := by
  apply BitVec.eq_of_toNat_eq
  rw [pair_toNat, hi32_toNat, lo32_toNat]
  omega

end Machine

end Sys2Proof
end

