-- ==== Sys2Proof/Laws/Ops.lean ====
section
/-! SUPPORT. One lemma for each shared operation that says what it can do: the outcome record, the checks,
completion, DAG reads and the free values of a DAG fault. -/

namespace Sys2Proof.Machine

/-! ### The outcome record -/

@[simp] theorem record_none (c : Code) : Code.record .none c = c := by
  simp [Code.record]

theorem record_first {e : Code} (h : e ≠ .none) : Code.record e .none = e := by
  simp [Code.record, h]

theorem record_kept (e : Code) {c : Code} (h : c ≠ .none) : Code.record e c = c := by
  simp [Code.record, h]

/-- Completing with E_NONE twice is completing once (60_exceptions.md R274). -/
@[simp] theorem complete_none_complete_none (s : State) :
    (s.complete .none).complete .none = s.complete .none := by
  simp [State.complete]

theorem complete_none_eq (s : State) :
    s.complete .none = { s with err := .none, done := true, engine := .idle } := by
  simp [State.complete]

/-- STICKY after a record, as a case distinction on what it held (60_exceptions.md R274). -/
theorem record_eq (e c : Code) : Code.record e c = if c = .none then e else c := by
  unfold Code.record
  by_cases hc : c = .none <;> by_cases he : e = .none <;> simp [hc, he]

/-! ### Completion -/

/-- What a command with one effect, on RES, leaves (40_primitives.md R110). -/
theorem finishRes_eq (v : Word) (s : State) :
    finishRes v s = .next { s with res := v, engine := .idle, done := true, err := .none } := by
  simp [finishRes, finish, State.complete, State.setRes]

/-- What a command with one effect, on the direct context, leaves. -/
theorem finishCtx_eq (c : Ctx) (s : State) :
    finishCtx c s = .next { s with ctx := c, engine := .idle, done := true, err := .none } := by
  simp [finishCtx, finish, State.complete, State.setCtx]

/-- What a completion leaves (60_exceptions.md R274). -/
theorem complete_eq (e : Code) (s : State) :
    s.complete e = { s with engine := .idle, done := true, err := e,
                            sticky := if s.sticky = .none then e else s.sticky } := by
  simp [State.complete, record_eq]

/-! ### The acceptance checks -/

/-- `requireDag` runs its body exactly when DagCfgOK holds (60_exceptions.md R272). -/
theorem requireDag_ok {s : State} {run : Outcome} (h : s.dagCfgOK = true) :
    requireDag s run = run := by
  simp [requireDag, h]

theorem requireDag_bad {s : State} {run : Outcome} (h : s.dagCfgOK = false) :
    requireDag s run = .next (s.complete .config) := by
  simp [requireDag, h, raise]

/-- What `requireDag` can answer. -/
theorem requireDag_next {s t : State} {run : Outcome} (h : requireDag s run = .next t) :
    s.dagCfgOK = true ∧ run = .next t ∨ s.dagCfgOK = false ∧ t = s.complete .config := by
  cases hs : s.dagCfgOK
  · rw [requireDag_bad hs] at h
    exact .inr ⟨rfl, by cases h; rfl⟩
  · rw [requireDag_ok hs] at h
    exact .inl ⟨rfl, h⟩

theorem requireCache_ok {s : State} {run : Outcome} (h : s.cacheValid = true) :
    requireCache s run = run := by
  simp [requireCache, h]

theorem requireCache_bad {s : State} {run : Outcome} (h : s.cacheValid = false) :
    requireCache s run = .next (s.complete .noCache) := by
  simp [requireCache, h, raise]

/-- What `requireCache` can answer. -/
theorem requireCache_next {s t : State} {run : Outcome} (h : requireCache s run = .next t) :
    s.cacheValid = true ∧ run = .next t ∨ s.cacheValid = false ∧ t = s.complete .noCache := by
  cases hs : s.cacheValid
  · rw [requireCache_bad hs] at h
    exact .inr ⟨rfl, by cases h; rfl⟩
  · rw [requireCache_ok hs] at h
    exact .inl ⟨rfl, h⟩

/-- What `finishDag` can answer: the context replaced and E_NONE, or E_MEM with the write set drawn. -/
theorem finishDag_cases (ws : Reg → Bool) (c : Option Ctx) (s : State) :
    (∃ c', c = some c' ∧ finishDag ws c s = .next ((s.setCtx c').complete .none)) ∨
      c = none ∧ finishDag ws c s = .next ((s.clobber ws).complete .mem) := by
  cases c with
  | none => exact .inr ⟨rfl, rfl⟩
  | some c' => exact .inl ⟨c', rfl, rfl⟩

/-! ### DAG reads -/

/-- `DagCfgOK`, as 20_memory.md R72 lists it. -/
theorem dagCfgOK_iff (s : State) :
    s.dagCfgOK = true ↔ s.dagSize.toNat % 64 = 0 ∧ 16384 ≤ s.dagSize.toNat ∧
      s.dagBase.toNat % 64 = 0 ∧ s.dagBase.toNat + s.dagSize.toNat ≤ 2 ^ 64 := by
  simp [State.dagCfgOK]

/-- Under DagCfgOK there is at least one DAG item (40_primitives.md R123: at least 256). -/
theorem dagItems_pos {s : State} (h : s.dagCfgOK = true) : 256 ≤ s.dagItems := by
  have := (dagCfgOK_iff s).1 h
  simp only [State.dagItems]
  omega

/-- A DAG item inside a readable window is read (20_memory.md R68). -/
theorem dagItem_clear {s : State} (hc : s.dagClear) {idx : Nat} (hi : idx < s.dagItems) :
    s.dagItem idx =
      some (tabulate fun k => s.dag.word (s.dagBase.toNat + 64 * idx + 4 * k.val)) := by
  have hf : requestFaults s.params (s.dagBase.toNat + 64 * idx) 64 = false :=
    requestFaults_false fun x h₁ h₂ => hc x (by omega) (by
      simp only [State.dagItems] at hi
      omega)
  simp [State.dagItem, hf]

/-- The hot cache of a readable window is loaded (20_memory.md R69). -/
theorem preload_clear {s : State} (hok : s.dagCfgOK = true) (hc : s.dagClear) :
    s.preload = some (tabulate fun j => s.dag.word (s.dagBase.toNat + 4 * j.val)) := by
  have := (dagCfgOK_iff s).1 hok
  have hf : requestFaults s.params s.dagBase.toNat 16384 = false :=
    requestFaults_false fun x h₁ h₂ => hc x h₁ (by omega)
  simp [State.preload, hf]

/-- What a DAG read gives depends on DAG_BASE, DAG_FAULT and DAGMEM only. -/
theorem dagItem_congr {s t : State} (hb : t.dagBase = s.dagBase) (hp : t.params = s.params)
    (hd : t.dag = s.dag) : t.dagItem = s.dagItem := by
  funext idx
  simp [State.dagItem, hb, hp, hd]

/-- What a preload gives depends on DAG_BASE, DAG_FAULT and DAGMEM only. -/
theorem preload_congr {s t : State} (hb : t.dagBase = s.dagBase) (hp : t.params = s.params)
    (hd : t.dag = s.dag) : t.preload = s.preload := by
  simp [State.preload, hb, hp, hd]

/-! ### Free values -/

theorem drawOrKeep_kept {s : State} {ws : Reg → Bool} {r : Reg} (h : ws r = false) :
    s.drawOrKeep ws r = s.readReg r := by
  simp [State.drawOrKeep, h]

theorem drawOrKeep_drawn {s : State} {ws : Reg → Bool} {r : Reg} (h : ws r = true) :
    s.drawOrKeep ws r = s.drawFor r := by
  simp [State.drawOrKeep, h]

/-- A register outside the write set keeps its value over a DAG fault (60_exceptions.md R277). -/
theorem readReg_clobber {s : State} {ws : Reg → Bool} {r : Reg} (h : ws r = false) :
    (s.clobber ws).readReg r = s.readReg r := by
  cases r <;>
    simp [State.readReg, State.drawnCtx, drawOrKeep_kept h, State.statusWord, State.busy]

/-- A context no register of which is drawn is unchanged: SEARCH's write set holds none (44_search.md
R246). -/
theorem drawnCtx_kept {s : State} {ws : Reg → Bool}
    (h : ∀ r, writeSet .search r = false → ws r = false) : s.drawnCtx ws = s.ctx := by
  have hk : ∀ r : Reg, writeSet .search r = false → s.drawOrKeep ws r = s.readReg r := fun r hr =>
    drawOrKeep_kept (h r hr)
  have hks : (tabulate fun i => s.drawOrKeep ws (.ks i)) = s.ctx.ks :=
    (tabulate_congr fun i => hk (.ks i) rfl).trans (tabulate_self _)
  have hskw : (tabulate fun i => s.drawOrKeep ws (.skw i)) = s.ctx.skw :=
    (tabulate_congr fun i => hk (.skw i) rfl).trans (tabulate_self _)
  have hlm : (tabulate fun l => tabulate fun r => s.drawOrKeep ws (.lm l r)) = s.ctx.lm :=
    (tabulate_congr fun l =>
      (tabulate_congr fun r => hk (.lm l r) rfl).trans (tabulate_self _)).trans (tabulate_self _)
  have hmx : (tabulate fun l => s.drawOrKeep ws (.mx l)) = s.ctx.mx :=
    (tabulate_congr fun l => hk (.mx l) rfl).trans (tabulate_self _)
  have hfm : (tabulate fun i => s.drawOrKeep ws (.fm i)) = s.ctx.fm :=
    (tabulate_congr fun i => hk (.fm i) rfl).trans (tabulate_self _)
  have hdg : (tabulate fun i => s.drawOrKeep ws (.dg i)) = s.ctx.dg :=
    (tabulate_congr fun i => hk (.dg i) rfl).trans (tabulate_self _)
  simp only [State.drawnCtx, hks, hskw, hlm, hmx, hfm, hdg, hk .seedLo rfl, hk .seedHi rfl,
    hk .kissZ rfl, hk .kissW rfl, hk .kissJsr rfl, hk .kissJcong rfl, hk .loopIdx rfl, State.readReg]

end Sys2Proof.Machine
end

