-- ==== Sys2Proof/Laws/Exec.lean ====
section
/-! SUPPORT. What running a command can answer: it keeps the parameters and DAGMEM, and it leaves the
engine idle or, for a SEARCH that starts, searching (60_exceptions.md R273; 44_search.md R236). -/

namespace Sys2Proof.Machine

/-- What a command's run leaves of the parameters, of DAGMEM and of the engine. -/
theorem exec_next {i : Instr} {s t : State} (h : exec i s = .next t) :
    t.params = s.params ∧ t.dag = s.dag ∧
      (t.engine = .idle ∨ i = .search ∧ s.dagCfgOK = true ∧
        ((∃ w, s.preload = some w ∧
            t = (s.clearFound.loadCache w).setEngine (.searching s.newSearch)) ∨
          s.preload = none ∧
            t = s.clearFound.dropCache.setEngine
              (.searching { s.newSearch with memErr := true }))) := by
  have fc : ∀ (e : Code) (u : State), u.params = s.params → u.dag = s.dag →
      (Host.Outcome.next (u.complete e) : Outcome) = .next t →
      t.params = s.params ∧ t.dag = s.dag ∧ t.engine = .idle := by
    intro e u a b h
    injection h with h
    rw [← h]
    exact ⟨a, b, rfl⟩
  have fR : ∀ v, finishRes v s = .next t →
      t.params = s.params ∧ t.dag = s.dag ∧ t.engine = .idle :=
    fun v h => fc .none (s.setRes v) rfl rfl h
  have fC : ∀ v, finishCtx v s = .next t →
      t.params = s.params ∧ t.dag = s.dag ∧ t.engine = .idle :=
    fun v h => fc .none (s.setCtx v) rfl rfl h
  have fd : ∀ ws c, finishDag ws c s = .next t →
      t.params = s.params ∧ t.dag = s.dag ∧ t.engine = .idle := by
    intro ws c h
    rcases finishDag_cases ws c s with ⟨c', -, h₂⟩ | ⟨-, h₂⟩ <;> rw [h₂] at h
    · exact fc _ _ (by rfl) (by rfl) h
    · exact fc _ _ (by rfl) (by rfl) h
  by_cases hs : i = .search
  · subst hs
    rw [exec, execSearch] at h
    rcases requireDag_next h with ⟨hok, h⟩ | ⟨-, h⟩
    · cases hp : s.preload with
      | some w =>
        rw [hp] at h
        injection h with h
        subst h
        exact ⟨rfl, rfl, .inr ⟨rfl, hok, .inl ⟨w, rfl, rfl⟩⟩⟩
      | none =>
        rw [hp] at h
        injection h with h
        subst h
        exact ⟨rfl, rfl, .inr ⟨rfl, hok, .inr ⟨rfl, rfl⟩⟩⟩
    · subst h
      exact ⟨rfl, rfl, .inl rfl⟩
  · suffices t.params = s.params ∧ t.dag = s.dag ∧ t.engine = .idle from
      ⟨this.1, this.2.1, .inl this.2.2⟩
    cases i with
    | search => exact absurd rfl hs
    | nop =>
      rw [exec, execNop] at h
      exact fc _ _ rfl rfl h
    | fnv1a =>
      rw [exec, execFnv1a] at h
      exact fR _ h
    | rotl =>
      rw [exec, execRotl] at h
      exact fR _ h
    | rotr =>
      rw [exec, execRotr] at h
      exact fR _ h
    | clz =>
      rw [exec, execClz] at h
      exact fR _ h
    | popc =>
      rw [exec, execPopc] at h
      exact fR _ h
    | umulhi =>
      rw [exec, execUmulhi] at h
      exact fR _ h
    | rmath =>
      rw [exec, execRmath] at h
      exact fR _ h
    | rmerge =>
      rw [exec, execRmerge] at h
      exact fR _ h
    | kissSeed =>
      rw [exec, execKissSeed] at h
      exact fC _ h
    | kissNext =>
      rw [exec, execKissNext] at h
      exact fc .none ((s.setRes (kissNext s.params.kissCombine s.ctx.kiss).1).setCtx
        { s.ctx with kiss := (kissNext s.params.kissCombine s.ctx.kiss).2 }) rfl rfl h
    | keccakF800 =>
      rw [exec, execKeccakF800] at h
      exact fC _ h
    | keccakRound rnd =>
      rw [exec, execKeccakRound] at h
      split at h
      · exact fC _ h
      · exact fc _ s rfl rfl h
    | seedAbsorb =>
      rw [exec, execSeedAbsorb] at h
      exact fC _ h
    | seedExtract =>
      rw [exec, execSeedExtract] at h
      exact fC _ h
    | finalAbsorb =>
      rw [exec, execFinalAbsorb] at h
      exact fC _ h
    | digestExtract =>
      rw [exec, execDigestExtract] at h
      exact fC _ h
    | mixFill =>
      rw [exec, execMixFill] at h
      exact fC _ h
    | mixReduce =>
      rw [exec, execMixReduce] at h
      exact fC _ h
    | loopSeed a =>
      rw [exec, execLoopSeed] at h
      exact fC _ h
    | cacheMix =>
      rw [exec, execCacheMix] at h
      rcases requireCache_next h with ⟨-, h⟩ | ⟨-, h⟩
      · exact fC _ h
      · rw [h]
        exact ⟨rfl, rfl, rfl⟩
    | mathMix =>
      rw [exec, execMathMix] at h
      exact fC _ h
    | dagMix a =>
      rw [exec, execDagMix] at h
      rcases requireDag_next h with ⟨-, h⟩ | ⟨-, h⟩
      · exact fd _ _ h
      · rw [h]
        exact ⟨rfl, rfl, rfl⟩
    | mixUpdate =>
      rw [exec, execMixUpdate] at h
      exact fC _ h
    | loopIter a =>
      rw [exec, execLoopIter] at h
      rcases requireDag_next h with ⟨-, h⟩ | ⟨-, h⟩
      · rcases requireCache_next h with ⟨-, h⟩ | ⟨-, h⟩
        · exact fd _ _ h
        · rw [h]
          exact ⟨rfl, rfl, rfl⟩
      · rw [h]
        exact ⟨rfl, rfl, rfl⟩
    | finalReduce =>
      rw [exec, execFinalReduce] at h
      exact fC _ h
    | cacheLoad =>
      rw [exec, execCacheLoad] at h
      rcases requireDag_next h with ⟨-, h⟩ | ⟨-, h⟩
      · cases hp : s.preload with
        | some w =>
          rw [hp] at h
          exact fc .none (s.loadCache w) rfl rfl h
        | none =>
          rw [hp] at h
          exact fc .mem (s.dropCache.clobber _) rfl rfl h
      · rw [h]
        exact ⟨rfl, rfl, rfl⟩
    | hash =>
      rw [exec, execHash] at h
      rcases requireDag_next h with ⟨-, h⟩ | ⟨-, h⟩
      · cases hp : s.preload with
        | some w =>
          rw [hp] at h
          simp only [hashLoaded] at h
          split at h
          · exact fc .none (((s.loadCache w).setCtx _).setRes _) rfl rfl h
          · exact fc .mem ((s.loadCache w).clobber _) rfl rfl h
        | none =>
          rw [hp] at h
          exact fc .mem (s.dropCache.clobber _) rfl rfl h
      · rw [h]
        exact ⟨rfl, rfl, rfl⟩
    | targetCmp =>
      rw [exec, execTargetCmp] at h
      exact fR _ h

end Sys2Proof.Machine
end

