-- ==== Sys2Proof/Laws/Mix.lean ====
section
/-! SUPPORT. What the mix pipeline's shared operations do: a run of draws, one DAG item merged, a DAG mix
and a loop iteration over a readable DAG (41_kiss99.md R141, 43_mix.md R191, R196, R198). -/

namespace Sys2Proof.Machine

/-! ### Draws -/

/-- After `n` draws the generator has stepped `n` times (R141). -/
theorem kissDraws_state (combine : KissCombine) (n : Nat) (k : Kiss) :
    (kissDraws combine n k).2 = Kiss.step^[n] k := by
  induction n with
  | zero => rfl
  | succ n ih => rw [Function.iterate_succ_apply', ← ih]; rfl

/-- The `i`-th draw, counted from 0, is the output after `i + 1` steps (R141, R191). -/
theorem kissDraws_getElem (combine : KissCombine) (n : Nat) (k : Kiss) (i : Nat) (h : i < n) :
    (kissDraws combine n k).1[i] = (Kiss.step^[i + 1] k).output combine := by
  induction n with
  | zero => omega
  | succ n ih =>
    have hs := kissDraws_state combine n k
    show ((kissDraws combine n k).1.push _)[i] = _
    by_cases hi : i < n
    · rw [Vector.getElem_push_lt hi, ih hi]
    · obtain rfl : i = n := by omega
      rw [Vector.getElem_push_eq, Function.iterate_succ_apply', ← hs]
      rfl

/-- MIX_FILL's lane `l` is 32 draws of the generator seeded with (SEED, l) (R191). -/
theorem mixFill_lane (combine : KissCombine) (c : Ctx) (l : Fin 16) :
    (c.mixFill combine).lm[l] =
      (kissDraws combine 32 (kissInit c.seed (BitVec.ofNat 32 l.val))).1 := by
  rw [Ctx.mixFill, Fin.getElem_fin, tabulate_getElem]

/-- MIX_FILL leaves lane 15's generator after 32 steps (R191). -/
theorem mixFill_kiss (combine : KissCombine) (c : Ctx) :
    (c.mixFill combine).kiss = Kiss.step^[32] (kissInit c.seed (BitVec.ofNat 32 15)) := by
  rw [← kissDraws_state combine, Ctx.mixFill]

/-- CACHE_MIX's body on the generator's first two outputs (43_mix.md R194). -/
theorem cacheMix_eq (combine : KissCombine) (cache : Vector Word 4096) (c : Ctx) :
    c.cacheMix combine cache =
      { c with
        mx := c.mx.set (laneOf (c.kiss.step.output combine))
          (randomMerge c.mx[laneOf (c.kiss.step.output combine)]
            (cache[c.mx[laneOf (c.kiss.step.output combine)].toNat % 4096]'(Nat.mod_lt _ (by decide)))
            (c.kiss.step.step.output combine))
        kiss := c.kiss.step.step } :=
  rfl

/-- MATH_MIX's body on the generator's first five outputs (43_mix.md R195). -/
theorem mathMix_eq (combine : KissCombine) (c : Ctx) (draw : Nat → Word)
    (hd : ∀ i, draw i = (Kiss.step^[i + 1] c.kiss).output combine) :
    c.mathMix combine =
      { c with
        mx := c.mx.set (laneOf (draw 2))
          (randomMerge c.mx[laneOf (draw 2)]
            (randomMath c.mx[laneOf (draw 0)] c.mx[laneOf (draw 1)] (draw 3)) (draw 4))
        kiss := Kiss.step^[5] c.kiss } := by
  simp only [hd]
  rfl

/-! ### One DAG item -/

/-- Merging the words `ks` of an item, in that order and each once: the `p`-th of them goes to
`MX[(lane + k) mod 16]` with the draw after `p + 1` steps, and no other word of MX changes (R196). -/
theorem mergeWord_foldl (combine : KissCombine) (lane : Fin 16) (item : Vector Word 16)
    (ks : List (Fin 16)) (hk : ks.Nodup) (acc : Vector Word 16 × Kiss) :
    (ks.foldl (mergeWord combine lane item) acc).2 = Kiss.step^[ks.length] acc.2 ∧
      (∀ (p : Nat) (hp : p < ks.length),
        (ks.foldl (mergeWord combine lane item) acc).1[lane + ks[p]] =
          randomMerge acc.1[lane + ks[p]] item[ks[p]]
            ((Kiss.step^[p + 1] acc.2).output combine)) ∧
      ∀ t : Fin 16, (∀ k ∈ ks, t ≠ lane + k) →
        (ks.foldl (mergeWord combine lane item) acc).1[t] = acc.1[t] := by
  induction ks generalizing acc with
  | nil => exact ⟨rfl, fun p hp => absurd hp (by simp), fun _ _ => rfl⟩
  | cons k ks ih =>
    obtain ⟨hn, hk⟩ := List.nodup_cons.1 hk
    obtain ⟨h₁, h₂, h₃⟩ := ih hk (mergeWord combine lane item acc k)
    have hother : ∀ t : Fin 16, t ≠ lane + k →
        (mergeWord combine lane item acc k).1[t] = acc.1[t] := fun t ht => by
      have : (lane + k).val ≠ t.val := fun h => ht (Fin.ext h.symm)
      simp [mergeWord, this]
    refine ⟨?_, ?_, ?_⟩
    · rw [List.foldl_cons, h₁]
      rfl
    · intro p hp
      cases p with
      | zero =>
        rw [List.foldl_cons]
        show (ks.foldl (mergeWord combine lane item) _).1[lane + k] = _
        rw [h₃ (lane + k) fun k' hk' h => hn (by rw [add_left_cancel h]; exact hk')]
        simp [mergeWord, kissNext]
      | succ p =>
        have hp' : p < ks.length := by simpa using hp
        have hne : lane + ks[p] ≠ lane + k := fun h =>
          hn (by rw [← add_left_cancel h]; exact List.getElem_mem _)
        have := h₂ p hp'
        rw [hother _ hne] at this
        exact this
    · intro t ht
      rw [List.foldl_cons, h₃ t fun k' hk' => ht k' (List.mem_cons_of_mem _ hk'),
        hother t (ht k List.mem_cons_self)]

/-- A whole item merged: word `k` goes to `MX[(lane + k) mod 16]` with the (k+1)-th draw (R196). -/
theorem mergeItem_spec (combine : KissCombine) (lane : Fin 16) (item : Vector Word 16)
    (acc : Vector Word 16 × Kiss) :
    (mergeItem combine lane item acc).2 = Kiss.step^[16] acc.2 ∧
      ∀ k : Fin 16, (mergeItem combine lane item acc).1[lane + k] =
        randomMerge acc.1[lane + k] item[k] ((Kiss.step^[k.val + 1] acc.2).output combine) := by
  obtain ⟨h₁, h₂, -⟩ := mergeWord_foldl combine lane item (List.finRange 16)
    (List.nodup_finRange 16) acc
  refine ⟨h₁.trans (by rw [List.length_finRange]), fun k => ?_⟩
  have := h₂ k.val (by simp)
  simpa [mergeItem] using this

/-! ### What a hash reads -/

/-- What the direct context's commands read does not depend on that context, on RES or on STATUS's
completion fields (44_search.md R232). -/
@[simp] theorem hashEnv_setCtx (c : Ctx) (s : State) : (s.setCtx c).hashEnv = s.hashEnv := rfl

@[simp] theorem hashEnv_setRes (v : Word) (s : State) : (s.setRes v).hashEnv = s.hashEnv := rfl

@[simp] theorem hashEnv_complete (e : Code) (s : State) : (s.complete e).hashEnv = s.hashEnv := rfl

@[simp] theorem hashEnv_setEngine (e : Engine) (s : State) :
    (s.setEngine e).hashEnv = s.hashEnv := rfl

/-- Over a readable window every item is read (20_memory.md R68). -/
theorem hashEnv_item_clear {s : State} (hc : s.dagClear) (idx : Nat) (hi : idx < s.hashEnv.items) :
    (s.hashEnv.item idx).isSome = true := by
  show (s.dagItem idx).isSome = true
  rw [dagItem_clear hc hi]
  rfl

/-- A DAG mix whose items are all read gives a context, with LOOP_IDX as it was (R196). -/
theorem dagMix_some {env : HashEnv} (hp : 0 < env.items)
    (hi : ∀ idx, idx < env.items → (env.item idx).isSome = true) (arg : BitVec 16) (c : Ctx) :
    ∃ c', c.dagMix env arg = some c' ∧ c'.loopIdx = c.loopIdx := by
  obtain ⟨item, h⟩ := Option.isSome_iff_exists.1
    (hi (c.dagIndex env.items (laneOf (argWord arg))) (Nat.mod_lt _ hp))
  simp only [Ctx.dagMix, h]
  exact ⟨_, rfl, rfl⟩

/-- A sequence of bodies each of which keeps a property and gives a context gives one that has it. -/
theorem foldlM_some {α : Type} {f : Ctx → α → Option Ctx} {P : Ctx → Prop}
    (hf : ∀ c a, P c → ∃ c', f c a = some c' ∧ P c') (as : List α) {c : Ctx} (hc : P c) :
    ∃ c', as.foldlM f c = some c' ∧ P c' := by
  induction as generalizing c with
  | nil => exact ⟨c, rfl, hc⟩
  | cons a as ih =>
    obtain ⟨c₁, h₁, hp⟩ := hf c a hc
    obtain ⟨c₂, h₂, hq⟩ := ih hp
    exact ⟨c₂, by simp [List.foldlM_cons, h₁, h₂], hq⟩

/-- A function iterated keeps what one application keeps. -/
theorem iterate_keeps {α β : Type} (g : α → β) (f : α → α) (h : ∀ c, g (f c) = g c) (n : Nat) (c : α) :
    g (f^[n] c) = g c := by
  induction n with
  | zero => rfl
  | succ n ih => rw [Function.iterate_succ_apply', h, ih]

/-- A loop iteration whose items are all read gives a context with LOOP_IDX = ARG (R198). -/
theorem loopIter_some {env : HashEnv} (hp : 0 < env.items)
    (hi : ∀ idx, idx < env.items → (env.item idx).isSome = true) (arg : BitVec 16) (c : Ctx) :
    ∃ c', c.loopIter env arg = some c' ∧ c'.loopIdx = argWord arg := by
  obtain ⟨c₄, h₄, hl⟩ := foldlM_some (P := fun c => c.loopIdx = argWord arg)
    (f := fun c i => c.dagMix env (BitVec.ofNat 16 i))
    (fun c i hc => by
      obtain ⟨c', h, hl⟩ := dagMix_some hp hi (BitVec.ofNat 16 i) c
      exact ⟨c', h, hl.trans hc⟩)
    (List.range 64)
    (c := (Ctx.mathMix env.params.kissCombine)^[18]
      ((Ctx.cacheMix env.params.kissCombine env.cache)^[11] (c.mixReduce.loopSeed arg)))
    (by
      rw [iterate_keeps Ctx.loopIdx (Ctx.mathMix env.params.kissCombine) fun _ => rfl,
        iterate_keeps Ctx.loopIdx (Ctx.cacheMix env.params.kissCombine env.cache) fun _ => rfl]
      rfl)
  refine ⟨c₄.mixUpdate, ?_, hl⟩
  simp only [Ctx.loopIter]
  rw [h₄]
  rfl

/-- A hash whose items are all read gives a context with LOOP_IDX = 63 (44_search.md R232, R233). -/
theorem runHash_some {env : HashEnv} (hp : 0 < env.items)
    (hi : ∀ idx, idx < env.items → (env.item idx).isSome = true) (header : Vector Word 8)
    (lo hi' : Word) (c : Ctx) :
    ∃ c', c.runHash env header lo hi' = some c' ∧ c'.loopIdx = 63 := by
  obtain ⟨c₁, h₁, -⟩ := foldlM_some (P := fun _ => True)
    (f := fun c j => c.loopIter env (BitVec.ofNat 16 j))
    (fun c j _ => by
      obtain ⟨c', h, -⟩ := loopIter_some hp hi (BitVec.ofNat 16 j) c
      exact ⟨c', h, trivial⟩)
    (List.range 63)
    (c := ((((c.seedAbsorb header lo hi').permute env.params.rcTable).seedExtract).mixFill
      env.params.kissCombine)) trivial
  obtain ⟨c₂, h₂, hl⟩ := loopIter_some hp hi (BitVec.ofNat 16 63) c₁
  refine ⟨(c₂.finalReduce.finalAbsorb.permute env.params.rcTable).digestExtract, ?_, hl⟩
  simp only [Ctx.runHash]
  rw [List.range_succ, List.foldlM_append, h₁]
  simp [h₂]

/-! ### Runs of commands -/

/-- A run of commands that completes, then another run (70_reset_and_hazards.md R312). -/
theorem execAll_append {is : List Instr} {s t : State} (h : execAll is s = .next t)
    (js : List Instr) : execAll (is ++ js) s = execAll js t := by
  induction is generalizing s with
  | nil =>
    cases h
    rfl
  | cons i is ih =>
    simp only [execAll, List.cons_append] at h ⊢
    cases he : exec i s with
    | next u =>
      rw [he] at h
      exact ih h
    | fault _ =>
      rw [he] at h
      cases h
    | refused _ =>
      rw [he] at h
      cases h

end Sys2Proof.Machine
end

