-- ==== Sys2Proof/Laws/PerInstr.lean ====
section
/-! SUPPORT. The family of facts stated for each command: what the encoder writes is a legal word with the
command's OP (30_encoding.md R91, R92, R96), so no two commands share a word. -/

namespace Sys2Proof.Laws.EncodesLegal

/-- `encode i` is legal (R96) and its OP is `i`'s (R92). -/
def Statement (i : Instr) : Prop :=
  rsvField (encode i) = 0 ∧ opField (encode i) = i.op ∧ i.op.toNat ∈ assignedOps

/-- One command's statement, from its OP's place in the opcode map. -/
theorem of_assigned {i : Instr} (h : i.op.toNat ∈ assignedOps) : Statement i :=
  ⟨rsvField_encode i, opField_encode i, h⟩

theorem nop : Statement .nop := of_assigned (by decide)
theorem fnv1a : Statement .fnv1a := of_assigned (by decide)
theorem rotl : Statement .rotl := of_assigned (by decide)
theorem rotr : Statement .rotr := of_assigned (by decide)
theorem clz : Statement .clz := of_assigned (by decide)
theorem popc : Statement .popc := of_assigned (by decide)
theorem umulhi : Statement .umulhi := of_assigned (by decide)
theorem rmath : Statement .rmath := of_assigned (by decide)
theorem rmerge : Statement .rmerge := of_assigned (by decide)
theorem kissSeed : Statement .kissSeed := of_assigned (by decide)
theorem kissNext : Statement .kissNext := of_assigned (by decide)
theorem keccakF800 : Statement .keccakF800 := of_assigned (by decide)
theorem keccakRound (rnd : BitVec 5) : Statement (.keccakRound rnd) := of_assigned (by simp [assignedOps, Instr.op])
theorem seedAbsorb : Statement .seedAbsorb := of_assigned (by decide)
theorem seedExtract : Statement .seedExtract := of_assigned (by decide)
theorem finalAbsorb : Statement .finalAbsorb := of_assigned (by decide)
theorem digestExtract : Statement .digestExtract := of_assigned (by decide)
theorem mixFill : Statement .mixFill := of_assigned (by decide)
theorem mixReduce : Statement .mixReduce := of_assigned (by decide)
theorem loopSeed (arg : BitVec 16) : Statement (.loopSeed arg) := of_assigned (by simp [assignedOps, Instr.op])
theorem cacheMix : Statement .cacheMix := of_assigned (by decide)
theorem mathMix : Statement .mathMix := of_assigned (by decide)
theorem dagMix (arg : BitVec 16) : Statement (.dagMix arg) := of_assigned (by simp [assignedOps, Instr.op])
theorem mixUpdate : Statement .mixUpdate := of_assigned (by decide)
theorem loopIter (arg : BitVec 16) : Statement (.loopIter arg) := of_assigned (by simp [assignedOps, Instr.op])
theorem finalReduce : Statement .finalReduce := of_assigned (by decide)
theorem cacheLoad : Statement .cacheLoad := of_assigned (by decide)
theorem hash : Statement .hash := of_assigned (by decide)
theorem targetCmp : Statement .targetCmp := of_assigned (by decide)
theorem search : Statement .search := of_assigned (by decide)

end Sys2Proof.Laws.EncodesLegal
end

