-- ==== Sys2Proof/Laws/Primitives.lean ====
section
/-! SUPPORT. What the primitives compute, bit by bit or as numbers (40_primitives.md R112 to R119). -/

namespace Sys2Proof.Machine

/-- `fnv1a` as a number (40_primitives.md R112). -/
theorem fnv1a_toNat (h d : Word) : (fnv1a h d).toNat = (h ^^^ d).toNat * 0x01000193 % 2 ^ 32 := by
  rw [fnv1a, BitVec.toNat_mul]
  congr 1

/-- `umulhi` as a number (R118). -/
theorem umulhi_toNat (a b : Word) : (umulhi a b).toNat = a.toNat * b.toNat / 2 ^ 32 := by
  have : a.toNat * b.toNat < 2 ^ 32 * 2 ^ 32 := Nat.mul_lt_mul'' a.isLt b.isLt
  simp only [umulhi, BitVec.toNat_ofNat]
  omega

/-- The rotation amount `x & 31` as a number (R114). -/
theorem and_31_toNat (x : Word) : (x &&& 31).toNat = x.toNat % 32 := by
  rw [BitVec.toNat_and]
  exact Nat.and_two_pow_sub_one_eq_mod x.toNat 5

/-- A left rotation moves bit `i - n` to bit `i`, around the word (R114). -/
theorem rotl32_getLsbD (x : Word) (n : Nat) {i : Nat} (hi : i < 32) :
    (rotl32 x n).getLsbD i = x.getLsbD ((i + 32 - n % 32) % 32) := by
  unfold rotl32
  split
  · rename_i h
    rw [h]
    congr 1
    omega
  · simp only [BitVec.getLsbD_or, BitVec.getLsbD_shiftLeft, BitVec.getLsbD_ushiftRight]
    by_cases hlt : i < n % 32
    · have : (i + 32 - n % 32) % 32 = 32 - n % 32 + i := by omega
      simp [hlt, hi, this]
    · have : (i + 32 - n % 32) % 32 = i - n % 32 := by omega
      have h₂ : x.getLsbD (32 - n % 32 + i) = false := BitVec.getLsbD_of_ge _ _ (by omega)
      simp [hlt, hi, this, h₂]

/-- A right rotation moves bit `i + n` to bit `i`, around the word (R115). -/
theorem rotr32_getLsbD (x : Word) (n : Nat) {i : Nat} (hi : i < 32) :
    (rotr32 x n).getLsbD i = x.getLsbD ((i + n % 32) % 32) := by
  unfold rotr32
  split
  · rename_i h
    rw [h]
    congr 1
    omega
  · simp only [BitVec.getLsbD_or, BitVec.getLsbD_shiftLeft, BitVec.getLsbD_ushiftRight]
    by_cases hlt : i < 32 - n % 32
    · have : (i + n % 32) % 32 = n % 32 + i := by omega
      simp [hlt, this]
    · have : (i + n % 32) % 32 = i - (32 - n % 32) := by omega
      have h₂ : x.getLsbD (n % 32 + i) = false := BitVec.getLsbD_of_ge _ _ (by omega)
      simp [hlt, hi, this, h₂]

end Sys2Proof.Machine
end

