-- ==== Sys2Proof/Laws/Search.lean ====
section
/-! SUPPORT. What a step of a running SEARCH can do: which thread it steps, what that thread's step leaves,
a commit, and completion (44_search.md R238 to R243). -/

namespace Sys2Proof.Machine

/-! ### The threads' records -/

/-- A thread is listed live exactly when its record is live (R238). -/
theorem mem_liveThreads (r : Search) (t : Nat) : t ∈ r.liveThreads ↔ (r.thread t).live = true := by
  simp only [Search.liveThreads, List.mem_filter, List.mem_range]
  constructor
  · exact fun h => h.2
  · intro h
    refine ⟨?_, h⟩
    by_contra hlt
    simp [Search.thread, List.getD_eq_getElem?_getD, List.getElem?_eq_none (Nat.le_of_not_lt hlt)] at h

/-- A live thread has a record (10_state.md R50). -/
theorem lt_of_live {r : Search} {t : Nat} (h : (r.thread t).live = true) : t < r.thr.length := by
  have := (mem_liveThreads r t).2 h
  simp only [Search.liveThreads, List.mem_filter, List.mem_range] at this
  exact this.1

/-- Replacing a record replaces that one alone. -/
theorem thread_setThread {r : Search} {t : Nat} (ht : t < r.thr.length) (th : Thread) (u : Nat) :
    (r.setThread t th).thread u = if u = t then th else r.thread u := by
  simp only [Search.setThread, Search.thread, List.getD_eq_getElem?_getD, List.getElem?_set]
  by_cases h : t = u
  · subst h
    simp [ht]
  · simp [h, Ne.symm h]

/-- The records, the group flags and the marks after a retirement. -/
theorem retire_eq (r : Search) (t : Nat) :
    r.retire t = { r with thr := r.thr.set t ⟨(r.thread t).k, false⟩ } :=
  rfl

/-- The records, the group flags and the marks after an advance. -/
theorem advance_eq (npt t : Nat) (r : Search) :
    r.advance npt t =
      { r with thr := r.thr.set t ⟨(r.thread t).k + 1, decide ((r.thread t).k + 1 ≠ npt)⟩ } :=
  rfl

/-! ### Commit -/

/-- What a commit leaves in the result slot, and that it changes nothing else (R240). -/
theorem commit_eq (s : State) (n : DWord) (dg fm : Vector Word 8) :
    s.commit n dg fm =
      { s with
        rnonceLo := if s.rnonce = 0 then lo32 n else s.rnonceLo
        rnonceHi := if s.rnonce = 0 then hi32 n else s.rnonceHi
        rhash := if s.rnonce = 0 then dg else s.rhash
        rmix := if s.rnonce = 0 then fm else s.rmix
        found := if s.rnonce = 0 then true else s.found } := by
  unfold State.commit
  split <;> rfl

/-- A commit from zero puts its nonce in RNONCE (R240). -/
theorem commit_rnonce {s : State} (h : s.rnonce = 0) (n : DWord) (dg fm : Vector Word 8) :
    (s.commit n dg fm).rnonce = n := by
  rw [State.commit, if_pos h]
  exact pair_hi32_lo32 n

/-! ### One thread step -/

/-- Everything a thread step can do (R239): exit, fault, hit or miss. -/
theorem threadStep_cases (t : Nat) (r : Search) (s : State) :
    (threadStep t r s = s.setEngine (.searching (r.retire t))) ∨
    ((r.thread t).k < s.npt.toNat ∧ kawHash s.hashEnv s.header (s.nonceOf t (r.thread t).k) = none ∧
      threadStep t r s = s.setEngine (.searching { r.retire t with memErr := true })) ∨
    (∃ dg fm, (r.thread t).k < s.npt.toNat ∧
      kawHash s.hashEnv s.header (s.nonceOf t (r.thread t).k) = some (dg, fm) ∧
      isHit (s.nonceOf t (r.thread t).k) dg s.target = true ∧
      threadStep t r s = (s.commit (s.nonceOf t (r.thread t).k) dg fm).setEngine
        (.searching { r.retire t with gf := r.gf.set (t / s.params.groupSize) true })) ∨
    (∃ dg fm, (r.thread t).k < s.npt.toNat ∧
      kawHash s.hashEnv s.header (s.nonceOf t (r.thread t).k) = some (dg, fm) ∧
      isHit (s.nonceOf t (r.thread t).k) dg s.target = false ∧
      threadStep t r s = s.setEngine (.searching (r.advance s.npt.toNat t))) := by
  unfold threadStep
  split
  · exact .inl rfl
  · rename_i h
    have hk : (r.thread t).k < s.npt.toNat := by
      by_contra hk
      exact h (.inr (by omega))
    right
    simp only [hashStep]
    cases hh : kawHash s.hashEnv s.header (s.nonceOf t (r.thread t).k) with
    | none => exact .inl ⟨hk, rfl, rfl⟩
    | some out =>
      obtain ⟨dg, fm⟩ := out
      right
      cases hi : isHit (s.nonceOf t (r.thread t).k) dg s.target
      · exact .inr ⟨dg, fm, hk, rfl, hi, by simp [hi]⟩
      · exact .inl ⟨dg, fm, hk, rfl, hi, by simp [hi]⟩

/-! ### One engine step of a SEARCH -/

/-- With no live thread the SEARCH completes; else the step is a live thread's (R238, R243). -/
theorem searchStep_cases (choice : Nat) (r : Search) (s : State) :
    ((∀ t, (r.thread t).live = false) ∧ searchStep choice r s = finishSearch r s) ∨
      ∃ t, (r.thread t).live = true ∧ searchStep choice r s = .next (threadStep t r s) := by
  unfold searchStep
  cases hl : r.liveThreads with
  | nil =>
    refine .inl ⟨fun t => ?_, rfl⟩
    rw [Bool.eq_false_iff]
    intro h
    have := (mem_liveThreads r t).2 h
    simp [hl] at this
  | cons t ts =>
    have hlt : choice % (ts.length + 1) < (t :: ts).length := Nat.mod_lt _ (by simp)
    refine .inr ⟨_, (mem_liveThreads r _).1 ?_, rfl⟩
    rw [hl, List.getD_eq_getElem _ _ hlt]
    exact List.getElem_mem _

/-- Every live thread is some choice's (R238). -/
theorem searchStep_choice {r : Search} {t : Nat} (h : (r.thread t).live = true) :
    ∃ choice, ∀ s, searchStep choice r s = .next (threadStep t r s) := by
  obtain ⟨n, hn, ht⟩ := List.getElem_of_mem ((mem_liveThreads r t).2 h)
  refine ⟨n, fun s => ?_⟩
  unfold searchStep
  cases hl : r.liveThreads with
  | nil => simp [hl] at hn
  | cons u us =>
    simp only [hl, List.length_cons] at hn
    have : (u :: us)[n]'(by simpa using hn) = t := by simp only [← hl, ht]
    simp only [Nat.mod_eq_of_lt hn]
    rw [List.getD_eq_getElem _ _ (by simpa using hn), this]

/-- With no live thread every choice completes the SEARCH (R243). -/
theorem searchStep_done {r : Search} (h : ∀ t, (r.thread t).live = false) (choice : Nat)
    (s : State) : searchStep choice r s = finishSearch r s := by
  rcases searchStep_cases choice r s with ⟨-, h₁⟩ | ⟨t, h₁, -⟩
  · exact h₁
  · rw [h t] at h₁
    cases h₁

/-- SEARCH's write set among the aperture's registers: the result slot and CACHE (R246). -/
theorem writeSet_search (reg : Reg) : writeSet .search reg = (reg.isResult || reg.isCache) := by
  cases reg <;> rfl

/-- A SEARCH's E_MEM leaves every register outside its write set (60_exceptions.md R277). -/
theorem searchFaultSet_subset {s : State} {reg : Reg} (h : writeSet .search reg = false) :
    s.searchFaultSet reg = false := by
  simp [State.searchFaultSet, h]

/-- Everything a SEARCH's E_MEM can change: CACHE, the result slot, the counter of free values (R246). -/
theorem clobber_searchFaultSet_eq (s : State) :
    s.clobber s.searchFaultSet =
      { s with
        rnonceLo := (s.clobber s.searchFaultSet).rnonceLo
        rnonceHi := (s.clobber s.searchFaultSet).rnonceHi
        rhash := (s.clobber s.searchFaultSet).rhash
        rmix := (s.clobber s.searchFaultSet).rmix
        cache := (s.clobber s.searchFaultSet).cache
        fresh := s.fresh + 0x1400 } := by
  have hc : s.drawnCtx s.searchFaultSet = s.ctx :=
    drawnCtx_kept fun _ => searchFaultSet_subset
  have hr : s.drawOrKeep s.searchFaultSet .res = s.res :=
    drawOrKeep_kept (searchFaultSet_subset rfl)
  conv_lhs => rw [State.clobber, hc, hr]
  rfl

/-- A committed result stays over a SEARCH's E_MEM (R243, 60_exceptions.md R277). -/
theorem clobber_committed {s : State} (h : s.found = true) :
    (s.clobber s.searchFaultSet).rnonce = s.rnonce ∧
      (s.clobber s.searchFaultSet).rhash = s.rhash ∧
      (s.clobber s.searchFaultSet).rmix = s.rmix := by
  have hk : ∀ reg : Reg, reg.isResult = true →
      s.drawOrKeep s.searchFaultSet reg = s.readReg reg := fun reg hr =>
    drawOrKeep_kept (by simp [State.searchFaultSet, hr, h])
  refine ⟨?_, ?_, ?_⟩
  · simp only [State.rnonce, State.clobber_rnonceLo, State.clobber_rnonceHi, hk .rnonceLo rfl,
      hk .rnonceHi rfl, State.readReg]
  · exact (tabulate_congr fun i => hk (.rhash i) rfl).trans (tabulate_self _)
  · exact (tabulate_congr fun i => hk (.rmix i) rfl).trans (tabulate_self _)

/-- An RNONCE of 0 stays 0 over a SEARCH's E_MEM (R244 (d); log 12). -/
theorem clobber_rnonce_zero {s : State} (h : s.rnonce = 0) :
    (s.clobber s.searchFaultSet).rnonce = 0 := by
  have hk : ∀ reg : Reg, reg.isResultNonce = true →
      s.drawOrKeep s.searchFaultSet reg = s.readReg reg := fun reg hr =>
    drawOrKeep_kept (by simp [State.searchFaultSet, hr, h])
  simp only [State.rnonce, State.clobber_rnonceLo, State.clobber_rnonceHi, hk .rnonceLo rfl,
    hk .rnonceHi rfl, State.readReg]
  exact h

/-- What completing a SEARCH leaves (R243): the outcome, with the write set drawn after E_MEM as
`State.searchFaultSet` says (log 11, 12). -/
theorem finishSearch_eq (r : Search) (s : State) :
    finishSearch r s =
      .next ((if r.memErr then s.clobber s.searchFaultSet else s).complete r.outcome) := by
  unfold finishSearch Search.outcome memFault
  cases r.memErr <;> simp

end Sys2Proof.Machine
end

