-- ==== Sys2Proof/Laws/Step.lean ====
section
/-! SUPPORT. What one step of the machine can be: an engine step or one event from outside, and what each
of them answers (20_memory.md R76; 60_exceptions.md R273; 10_state.md R51 to R54). -/

namespace Sys2Proof.Machine

/-! ### Host accesses -/

/-- A register's offset is inside the aperture and word aligned (10_state.md R22). -/
theorem offset_bounds (r : Reg) : r.offset % 4 = 0 ∧ r.offset < 0x5000 := by
  cases r <;> first | decide | (simp only [Reg.offset]; omega)

/-- An access of four bytes at a register's address is accepted (20_memory.md R61). -/
theorem accessOffset_reg (s : State) (r : Reg) :
    s.accessOffset 4 (s.params.apBase + r.offset) = .ok r.offset := by
  have := offset_bounds r
  unfold State.accessOffset
  rw [if_neg (by decide), if_neg (by simp only [apertureBytes]; omega), if_neg (by omega)]
  congr 1
  omega

/-- What a host read answers: refused, or the register's read, or 0 at a reserved offset (R52, R61). -/
theorem hostRead_next {width addr : Nat} {s t : State} (h : hostRead width addr s = .next t) :
    ∃ o, s.accessOffset width addr = .ok o ∧
      (regAt o = none ∧ t = { s with rdata := 0 } ∨ ∃ r, regAt o = some r ∧ t = s.readRegister r) := by
  unfold hostRead at h
  split at h
  · cases h
  · rename_i o ho
    refine ⟨o, ho, ?_⟩
    split at h
    · rename_i hr
      exact .inl ⟨hr, by cases h; rfl⟩
    · rename_i r hr
      exact .inr ⟨r, hr, by cases h; rfl⟩

/-- What a host write answers: refused, or the register's write, or nothing at a reserved offset. -/
theorem hostWrite_next {width addr : Nat} {v : Word} {s t : State}
    (h : hostWrite width addr v s = .next t) :
    ∃ o, s.accessOffset width addr = .ok o ∧
      (regAt o = none ∧ t = s ∨ ∃ r, regAt o = some r ∧ t = s.writeRegister r v) := by
  unfold hostWrite at h
  split at h
  · cases h
  · rename_i o ho
    refine ⟨o, ho, ?_⟩
    split at h
    · rename_i hr
      exact .inl ⟨hr, by cases h; rfl⟩
    · rename_i r hr
      exact .inr ⟨r, hr, by cases h; rfl⟩

/-- A host read changes the model's own fields only (20_memory.md R62). -/
theorem readRegister_eq (s : State) (r : Reg) :
    s.readRegister r = { s with rdata := (s.readRegister r).rdata, fresh := (s.readRegister r).fresh } := by
  unfold State.readRegister
  split <;> rfl

/-- What a host write can do: act through CTRL, be noted as E_BUSY, be accepted as a command, or write a
data register while idle (R25, R27, R51, R53). -/
theorem writeRegister_cases (s : State) (r : Reg) (v : Word) :
    r = .ctrl ∧ s.writeRegister r v = s.ctrlWrite v ∨
    r ≠ .ctrl ∧ s.engine ≠ .idle ∧ s.writeRegister r v = s.noteBusy ∨
    r = .cmd ∧ s.engine = .idle ∧ s.writeRegister r v = s.accept v ∨
    r ≠ .ctrl ∧ r ≠ .cmd ∧ s.engine = .idle ∧ s.writeRegister r v = s.writeReg r v := by
  unfold State.writeRegister
  by_cases hc : r = .ctrl
  · exact .inl ⟨hc, by rw [if_pos hc]⟩
  · rw [if_neg hc]
    by_cases hb : s.engine = .idle
    · have : s.busy = false := by simp [State.busy, hb, Engine.busy]
      by_cases hm : r = .cmd
      · exact .inr (.inr (.inl ⟨hm, hb, by simp [this, hm]⟩))
      · exact .inr (.inr (.inr ⟨hc, hm, hb, by simp [this, hm]⟩))
    · have : s.busy = true := by
        cases he : s.engine <;> simp_all [State.busy, Engine.busy]
      exact .inr (.inl ⟨hc, hb, by simp [this]⟩)

/-- What CTRL's bits do (R25). -/
theorem ctrlWrite_eq (s : State) (v : Word) :
    s.ctrlWrite v =
      { s with
        engine := if v.getLsbD 0 then s.abort.engine else s.engine
        sticky := if v.getLsbD 1 then .none else s.sticky } := by
  obtain ⟨e, ha⟩ : ∃ e, s.abort = { s with engine := e } := by
    unfold State.abort
    split
    · exact ⟨_, rfl⟩
    · split <;> exact ⟨_, rfl⟩
    · exact ⟨_, rfl⟩
  rw [State.ctrlWrite, ha]
  cases v.getLsbD 0 <;> cases v.getLsbD 1 <;> rfl

/-! ### The engine -/

/-- What an engine step can be: nothing, the accepted command, an illegal word's completion, or a step of
the running SEARCH (60_exceptions.md R273). -/
theorem engineStep_cases (choice : Option Nat) (s : State) :
    s.engine = .idle ∧ engineStep choice s = .next s ∨
    (∃ abort i, s.engine = .accepted abort ∧ decode s.cmd = .ok i ∧ engineStep choice s = exec i s) ∨
    (∃ abort e, s.engine = .accepted abort ∧ decode s.cmd = .error e ∧
      engineStep choice s = .next (s.complete .illegal)) ∨
    ∃ r, s.engine = .searching r ∧ ∃ c n,
      engineStep choice s = searchStep c r { s with fresh := n } := by
  unfold engineStep
  cases he : s.engine with
  | idle => exact .inl ⟨rfl, rfl⟩
  | accepted abort =>
    right
    cases hd : decode s.cmd with
    | ok i => exact .inl ⟨abort, i, rfl, rfl, rfl⟩
    | error e => exact .inr (.inl ⟨abort, e, rfl, rfl, rfl⟩)
  | searching r =>
    refine .inr (.inr (.inr ⟨r, rfl, ?_⟩))
    cases choice with
    | some c =>
      refine ⟨c, s.fresh, ?_⟩
      show searchStep c r s = _
      rw [← he]
    | none =>
      refine ⟨Config.schedule s.fresh, s.fresh + 1, ?_⟩
      show searchStep _ r { s with fresh := s.fresh + 1 } = _
      rw [← he]

/-! ### One step -/

/-- A step is an engine step or one event from outside (20_memory.md R76). -/
theorem step_cases (s : State) :
    (s.engineNext ∧ ∃ choice, step s = engineStep choice (s.popInput s.inputs.tail)) ∨
      ∃ e rest, s.inputs = e :: rest ∧ (∀ c, e ≠ .engine c) ∧ step s = act e (s.popInput rest) := by
  unfold step State.engineNext
  cases hi : s.inputs with
  | nil =>
    refine .inl ⟨.inl rfl, none, ?_⟩
    show engineStep none s = engineStep none { s with inputs := [] }
    rw [← hi]
  | cons e rest =>
    cases e with
    | engine c => exact .inl ⟨.inr ⟨c, rest, rfl⟩, some c, rfl⟩
    | hostRead w a => exact .inr ⟨_, _, rfl, fun _ h => (by cases h), rfl⟩
    | hostWrite w a v => exact .inr ⟨_, _, rfl, fun _ h => (by cases h), rfl⟩
    | dagWrite a b => exact .inr ⟨_, _, rfl, fun _ h => (by cases h), rfl⟩
    | reset => exact .inr ⟨_, _, rfl, fun _ h => (by cases h), rfl⟩

/-- When the engine's step is next, the step is the engine's. -/
theorem step_engine {s : State} (h : s.engineNext) :
    ∃ choice, step s = engineStep choice (s.popInput s.inputs.tail) := by
  rcases step_cases s with ⟨-, h₁⟩ | ⟨e, rest, hi, he, -⟩
  · exact h₁
  · rcases h with h | ⟨c, rest', h⟩
    · rw [h] at hi
      cases hi
    · rw [h] at hi
      cases hi
      exact absurd rfl (he c)

end Sys2Proof.Machine
end

