-- ==== Sys2Proof/Laws/Run.lean ====
section
/-! SUPPORT. How one step can leave a SEARCH running: it starts one, a thread of it steps, or a host
access leaves its records alone but for ABORT_REQ (44_search.md R236, R238, R242). -/

namespace Sys2Proof.Machine

/-- A data register's write keeps the parameters, DAGMEM and the engine. -/
theorem writeReg_frame (s : State) (r : Reg) (v : Word) :
    (s.writeReg r v).params = s.params ∧ (s.writeReg r v).dag = s.dag ∧
      (s.writeReg r v).engine = s.engine := by
  cases r <;> exact ⟨rfl, rfl, rfl⟩

/-- What CTRL.ABORT leaves of the engine (44_search.md R242). -/
theorem abort_cases (s : State) :
    s.abort.engine = s.engine ∨
      (∃ a, s.engine = .accepted a ∧ s.abort.engine = .accepted true) ∨
      ∃ r, s.engine = .searching r ∧ s.abort.engine = .searching { r with abortReq := true } := by
  unfold State.abort
  split
  · exact .inl rfl
  · rename_i a h
    split
    · exact .inr (.inl ⟨a, h, rfl⟩)
    · exact .inl rfl
  · rename_i r h
    exact .inr (.inr ⟨r, h, rfl⟩)

/-- The next state has no SEARCH running. -/
def State.noSearch (t : State) : Prop := ∀ r, t.engine ≠ .searching r

/-- The step starts a SEARCH (R236). -/
def StartsSearch (s t : State) : Prop :=
  ∃ rest, (s.popInput rest).running = some .search ∧ (∃ a, s.engine = .accepted a) ∧
    s.dagCfgOK = true ∧
    ((∃ w, s.preload = some w ∧ t =
        ((s.popInput rest).clearFound.loadCache w).setEngine (.searching s.newSearch)) ∨
      s.preload = none ∧ t = (s.popInput rest).clearFound.dropCache.setEngine
        (.searching { s.newSearch with memErr := true }))

/-- The step is a live thread's step (R239). -/
def StepsThread (s t : State) : Prop :=
  ∃ r rest n u, s.engine = .searching r ∧ (r.thread u).live = true ∧
    t = threadStep u r { s.popInput rest with fresh := n }

/-- The step is a host access during a SEARCH: it may set ABORT_REQ and change STICKY (R53, R54, R242). -/
def KeepsSearch (s t : State) : Prop :=
  ∃ r abort, s.engine = .searching r ∧ t = { s with
    inputs := t.inputs, rdata := t.rdata, fresh := t.fresh, sticky := t.sticky,
    engine := .searching { r with abortReq := abort } }

/-- An engine step that leaves a SEARCH running starts it or steps a thread. -/
theorem engineStep_search {choice : Option Nat} {s t : State} {rest : List Event}
    (h : engineStep choice (s.popInput rest) = .next t) :
    t.noSearch ∨ StartsSearch s t ∨ StepsThread s t := by
  rcases engineStep_cases choice (s.popInput rest) with
    ⟨he, h₁⟩ | ⟨a, i, he, hd, h₁⟩ | ⟨a, e, -, -, h₁⟩ | ⟨r, he, c, n, h₁⟩ <;> rw [h₁] at h
  · cases h
    exact .inl fun r hr => by rw [he] at hr; cases hr
  · obtain ⟨-, -, h₃ | ⟨rfl, hok, h₃⟩⟩ := exec_next h
    · exact .inl fun r hr => by rw [h₃] at hr; cases hr
    · exact .inr (.inl ⟨rest, by simp only [State.running, he, hd], ⟨a, he⟩, hok, h₃⟩)
  · cases h
    exact .inl fun r hr => by cases hr
  · rcases searchStep_cases c r { s.popInput rest with fresh := n } with ⟨-, h₃⟩ | ⟨u, hu, h₃⟩ <;>
      rw [h₃] at h
    · rw [finishSearch_eq] at h
      cases h
      exact .inl fun r hr => by cases hr
    · injection h with h
      exact .inr (.inr ⟨r, rest, n, u, he, hu, h.symm⟩)

/-- A host write leaves no SEARCH, or a running one's records but for ABORT_REQ. -/
theorem writeRegister_search {s t : State} {rest : List Event} {q : Reg} {v : Word}
    (h : t = (s.popInput rest).writeRegister q v) : t.noSearch ∨ KeepsSearch s t := by
  rcases hse : s.engine with _ | a | r
  all_goals
    rcases writeRegister_cases (s.popInput rest) q v with
      ⟨-, h₂⟩ | ⟨-, -, h₂⟩ | ⟨-, h₃, h₂⟩ | ⟨-, -, h₃, h₂⟩ <;> rw [h₂] at h
  case searching.inl =>
    rw [ctrlWrite_eq] at h
    have ha : (s.popInput rest).abort.engine = .searching { r with abortReq := true } := by
      simp [State.abort, hse]
    rw [ha] at h
    by_cases hv : v.getLsbD 0
    · simp only [hv, if_true] at h
      exact .inr ⟨r, true, hse, by rw [h]; rfl⟩
    · simp only [hv] at h
      exact .inr ⟨r, r.abortReq, hse, by rw [h, ← hse]; rfl⟩
  case searching.inr.inl =>
    exact .inr ⟨r, r.abortReq, hse, by rw [h, ← hse]; rfl⟩
  case searching.inr.inr.inl => rw [State.popInput_engine, hse] at h₃; cases h₃
  case searching.inr.inr.inr => rw [State.popInput_engine, hse] at h₃; cases h₃
  all_goals refine .inl fun r' hr => ?_
  all_goals rw [h] at hr
  case idle.inl | accepted.inl =>
    rw [ctrlWrite_eq] at hr
    rcases abort_cases (s.popInput rest) with h₄ | ⟨_, _, h₅⟩ | ⟨_, h₄, _⟩
    · rw [h₄, State.popInput_engine, hse] at hr
      split at hr <;> cases hr
    · rw [h₅, State.popInput_engine, hse] at hr
      split at hr <;> cases hr
    · rw [State.popInput_engine, hse] at h₄
      cases h₄
  case idle.inr.inr.inl | accepted.inr.inr.inl => cases hr
  case idle.inr.inr.inr | accepted.inr.inr.inr =>
    rw [(writeReg_frame _ _ _).2.2, State.popInput_engine, hse] at hr
    cases hr
  all_goals
    have : (s.popInput rest).noteBusy.engine = s.engine := rfl
    rw [this, hse] at hr
    cases hr

/-- Every way a step can leave a SEARCH running. -/
theorem step_search {s t : State} (h : step s = .next t) :
    t.noSearch ∨ StartsSearch s t ∨ StepsThread s t ∨ KeepsSearch s t := by
  have keep : ∀ rest y z, t = { s with inputs := rest, rdata := y, fresh := z } →
      t.noSearch ∨ KeepsSearch s t := by
    intro rest y z ht
    by_cases hse : ∃ r, s.engine = .searching r
    · obtain ⟨r, he⟩ := hse
      exact .inr ⟨r, r.abortReq, he, by rw [ht, ← he]⟩
    · exact .inl fun r hr => hse ⟨r, by rw [ht] at hr; exact hr⟩
  rcases step_cases s with ⟨-, choice, hc⟩ | ⟨e, rest, -, hne, hc⟩ <;> rw [h] at hc
  · rcases engineStep_search hc.symm with h | h | h
    · exact .inl h
    · exact .inr (.inl h)
    · exact .inr (.inr (.inl h))
  · suffices t.noSearch ∨ KeepsSearch s t from this.imp id fun h => .inr (.inr h)
    cases e with
    | engine c => exact absurd rfl (hne c)
    | hostRead w a =>
      obtain ⟨o, -, ⟨-, h⟩ | ⟨q, -, h⟩⟩ := hostRead_next hc.symm
      · exact keep rest 0 s.fresh h
      · rw [readRegister_eq] at h
        exact keep rest _ _ h
    | hostWrite w a v =>
      obtain ⟨o, -, ⟨-, h⟩ | ⟨q, -, h⟩⟩ := hostWrite_next hc.symm
      · exact keep rest s.rdata s.fresh h
      · exact writeRegister_search h
    | dagWrite a b =>
      simp only [act, dagWrite] at hc
      split at hc
      · cases hc
      · rename_i hr
        injection hc with hc
        refine .inl fun r he => hr ?_
        rw [hc] at he
        have he' : (s.popInput rest).engine = .searching r := he
        rw [State.readingDag, State.running, he']
        rfl
    | reset =>
      cases hc
      exact .inl fun r hr => by cases hr

end Sys2Proof.Machine
end

