-- ==== Sys2Proof/Tests/Slice0.lean ====
section
/-! SUPPORT. The model's own tests. Expected values are those of 95_test_vectors.md (named by section) and
of the examples of the rules, or worked out by hand from a rule. The witnesses show states and operands
that meet a statement's hypotheses. -/

namespace Sys2Proof.Tests

open Sys2Proof.Machine

-- One check at a time: each waiting check holds a thread's stack.
set_option Elab.async false

/-! ### WellFormed and Decode -/

theorem test_wellFormed_round_21 : (Instr.keccakRound 21).wellFormed = true := by decide

/-- R93: a round index above 21 is out of range. -/
theorem test_wellFormed_refuses_round_22 : (Instr.keccakRound 22).wellFormed = false := by decide

/-- B1: RSV = 001 and RSV = 100 are illegal. -/
theorem test_rsvClear_refuses :
    rsvClear 0x00002001 = false ∧ rsvClear 0x00008043 = false ∧ rsvClear 0xFFFF1F35 = true := by decide

/-- B1: unassigned OP values are illegal. -/
theorem test_opAssigned_refuses :
    [0x09, 0x26, 0x44, 0xFF].map opAssigned = [false, false, false, false] ∧
      opAssigned 0x43 = true := by decide

theorem test_legalWord_refuses :
    [0x00002001, 0x00000009, 0x00002009].map legalWord = [false, false, false] ∧
      legalWord 0x12341F01 = true := by decide

/-- Words written field by field, ARG_RSV_RND_OP (R91, R92). -/
theorem test_decode_primitives :
    [0b0000000000000000_000_00000_00000000, 0b0000000000000000_000_00000_00000001,
      0b0000000000000000_000_00000_00000010, 0b0000000000000000_000_00000_00000011,
      0b0000000000000000_000_00000_00000100, 0b0000000000000000_000_00000_00000101,
      0b0000000000000000_000_00000_00000110, 0b0000000000000000_000_00000_00000111,
      0b0000000000000000_000_00000_00001000].map (decodeTableWord 32) =
    [some .nop, some .fnv1a, some .rotl, some .rotr, some .clz, some .popc, some .umulhi,
      some .rmath, some .rmerge] := by decide

theorem test_decode_kiss :
    [0b0000000000000000_000_00000_00010000, 0b0000000000000000_000_00000_00010001].map
      (decodeTableWord 32) = [some .kissSeed, some .kissNext] := by decide

theorem test_decode_keccak :
    [0b0000000000000000_000_00000_00100000, 0b0000000000000000_000_00101_00100001,
      0b0000000000000000_000_00000_00100010, 0b0000000000000000_000_00000_00100011,
      0b0000000000000000_000_00000_00100100, 0b0000000000000000_000_00000_00100101].map
      (decodeTableWord 32) =
    [some .keccakF800, some (.keccakRound 5), some .seedAbsorb, some .seedExtract,
      some .finalAbsorb, some .digestExtract] := by decide

theorem test_decode_mix :
    [0b0000000000000000_000_00000_00110000, 0b0000000000000000_000_00000_00110001,
      0b0000000000111111_000_00000_00110010, 0b0000000000000000_000_00000_00110011,
      0b0000000000000000_000_00000_00110100, 0b0000000000000101_000_00000_00110101,
      0b0000000000000000_000_00000_00110110, 0b0000000000111111_000_00000_00110111,
      0b0000000000000000_000_00000_00111000].map (decodeTableWord 32) =
    [some .mixFill, some .mixReduce, some (.loopSeed 63), some .cacheMix, some .mathMix,
      some (.dagMix 5), some .mixUpdate, some (.loopIter 63), some .finalReduce] := by decide

theorem test_decode_search :
    [0b0000000000000000_000_00000_01000000, 0b0000000000000000_000_00000_01000001,
      0b0000000000000000_000_00000_01000010, 0b0000000000000000_000_00000_01000011].map
      (decodeTableWord 32) = [some .cacheLoad, some .hash, some .targetCmp, some .search] := by decide

/-- B1: ignored fields, and the reasons of illegal words. -/
theorem test_decode_ignored_and_illegal :
    decode 0x12340001 = .ok .fnv1a ∧ decode 0x00001F01 = .ok .fnv1a ∧
      decode 0xFFFF1F35 = .ok (.dagMix 0xFFFF) ∧ decode 0x00001F21 = .ok (.keccakRound 31) ∧
      decode 0x00002020 = .error (.reservedBits 1) ∧ decode 0x00000026 = .error (.unassignedOp 0x26) := by
  decide

/-- R99: `OP | RND << 8 | ARG << 16`. -/
theorem test_encode_fields :
    encode (.loopSeed 63) = 0x003F0032 ∧ encode (.keccakRound 21) = 0x00001521 := by decide

/-! ### Running one command -/

/-- One observation of the next state; none when the step stops. -/
def see {α : Type} (f : State → α) : Outcome → Option α
  | .next t => some (f t)
  | .fault _ => none
  | .refused _ => none

/-- What `f` sees after the step that runs command word `w`. -/
def run {α : Type} (w : Nat) (s : State) (f : State → α) : Option α :=
  see f (step (s.withFetchWord 32 w))

/-- Reset with three operands. -/
def operands (a b c : Word) : State := { State.reset with opa := a, opb := b, opc := c }

/-- The KISS registers of kiss_init(0, 0) (A1). -/
def kissA1 : Kiss := ⟨0x050C5D1F, 0x117697CD, 0x4AB0F7B7, 0x4A95F382⟩

/-- DAG-B's word j (95_test_vectors.md, test inputs). -/
def dagB (j : Nat) : Word := fnv1a 0x811C9DC5 (BitVec.ofNat 32 j)

/-- DAGMEM holding the words `ws`, little-endian, from address `base`. -/
def placed (base : Nat) (ws : List Word) : Memory :=
  ((List.range (4 * ws.length)).map fun k =>
    (base + k, (ws.getD (k / 4) 0).extractLsb' (8 * (k % 4)) 8)).filter fun c => c.2 ≠ 0

/-- Reset with the smallest legal DAG, at address 0. -/
def okDag : State := { State.reset with dagSizeLo := 0x4000 }

/-- DAG-B's configuration, with some of its words in DAGMEM. -/
def configB (base : Nat) (ws : List Word) : State :=
  { State.reset with
    dagBaseHi := 1, dagSizeLo := 0x10000, dag := placed base ws, ctx.kiss := kissA1 }

/-- B9: RUN NOP. -/
theorem test_nop_status : run 0x00 State.reset (·.statusWord) = some 0x00000002 := by decide +kernel

/-- B2. -/
theorem test_fnv1a :
    run 0x01 (operands 0x12345678 0x9ABCDEF0 0) (·.res) = some 0x76EEEE18 := by decide +kernel

theorem test_rotl : run 0x02 (operands 0x12345678 36 0) (·.res) = some 0x23456781 := by decide +kernel

theorem test_rotl_by_32 :
    run 0x02 (operands 0x80000001 32 0) (·.res) = some 0x80000001 := by decide +kernel

theorem test_rotr : run 0x03 (operands 0x12345678 4 0) (·.res) = some 0x81234567 := by decide +kernel

theorem test_rotr_by_31 :
    run 0x03 (operands 0x80000001 31 0) (·.res) = some 0x00000003 := by decide +kernel

theorem test_clz : run 0x04 (operands 0x0000FFFF 0 0) (·.res) = some 16 := by decide +kernel

theorem test_clz_zero : run 0x04 (operands 0 0 0) (·.res) = some 32 := by decide +kernel

theorem test_popc : run 0x05 (operands 0x9ABCDEF0 0 0) (·.res) = some 19 := by decide +kernel

theorem test_umulhi :
    run 0x06 (operands 0x12345678 0x9ABCDEF0 0) (·.res) = some 0x0B00EA4E := by decide +kernel

/-- B2's row of nine selectors. -/
theorem test_rmath :
    (List.range 9).map (fun c => run 0x07 (operands 0x9ABCDEF0 0x12345678 (BitVec.ofNat 32 c)) (·.res)) =
      [0xACF13568, 0x88888878, 0x242D2080, 0x0B00EA4E, 0x88888888, 0xF09ABCDE, 0xBCDEF09A, 0x13, 0].map
        some := by decide +kernel

theorem test_rmath_selector_wraps :
    run 0x07 (operands 0x9ABCDEF0 0x12345678 0xFFFFFFFF) (·.res) = some 0x0B00EA4E := by decide +kernel

/-- B2's row of five selectors. -/
theorem test_rmerge :
    (List.range 5).map (fun c => run 0x08 (operands 0x9ABCDEF0 0x12345678 (BitVec.ofNat 32 c)) (·.res)) =
      [0xACF13568, 0x242D2080, 0x12345670, 0x9ABCDEF8, 0x88888888].map some := by decide +kernel

/-- B3. -/
theorem test_kissSeed :
    run 0x10 { operands 5 0 0 with ctx.seedHi := 0x01234567, ctx.seedLo := 0x89ABCDEF } (·.ctx.kiss) =
      some ⟨0xE293321E, 0xE7CC137B, 0x6442AF5A, 0x30FA0DD4⟩ := by decide +kernel

/-- B3: lane_id + 1 wraps to 0. -/
theorem test_kissSeed_wraps :
    run 0x10 (operands 0xFFFFFFFF 0 0) (·.ctx.kiss) =
      some ⟨0x050C5D1F, 0x117697CD, 0xB44F06B6, 0x8E679082⟩ := by decide +kernel

/-- A1, XOR. -/
theorem test_kissNext_xor :
    run 0x11 { State.reset with ctx.kiss := kissA1 } (·.res) = some 0x85D21167 := by decide +kernel

/-- B3's cross-check, ADD. -/
theorem test_kissNext_add :
    run 0x11 { State.reset with
      params.kissCombine := .add
      ctx.kiss := ⟨362436069, 521288629, 123456789, 380116160⟩ } (·.res) = some 769445856 := by
  decide +kernel

/-- A2, DOC. -/
theorem test_keccakF800 :
    run 0x20 State.reset (fun t => t.ctx.ks[24]) = some 0x17CA01A5 := by decide +kernel

/-- B4: KECCAK_ROUND 0 on KS[i] = i. -/
theorem test_keccakRound_0 :
    run 0x21 { State.reset with ctx.ks := tabulate fun i => BitVec.ofNat 32 i.val }
        (fun t => (t.ctx.ks[0], t.ctx.ks[1], t.ctx.ks[15], t.ctx.ks[24])) =
      some (0x0000181B, 0x0180E000, 0x78000C01, 0x0B000074) := by decide +kernel

/-- B4: KECCAK_ROUND 1 and 21 on KS = 0 with the STD table. -/
theorem test_keccakRound_std :
    [0x0121, 0x1521].map (fun w => run w { State.reset with params.rcTable := .std }
        (fun t => (t.ctx.ks[0], t.ctx.ks[1]))) =
      [some (0x00008082, 0), some (0x00008080, 0)] := by decide +kernel

/-- B1, B9: KECCAK_ROUND 22. -/
theorem test_keccakRound_22 :
    run 0x1621 State.reset (fun t => (t.statusWord, t.ctx.ks[0])) = some (0x00002202, 0) := by
  decide +kernel

/-- R170's example. -/
theorem test_seedAbsorb :
    run 0x22 { State.reset with
        header := tabulate fun i => 0x01010101 * BitVec.ofNat 32 i.val, nonceLo := 1, nonceHi := 2 }
        (fun t => (t.ctx.ks[7], t.ctx.ks[8], t.ctx.ks[9], t.ctx.ks[10])) =
      some (0x07070707, 1, 2, 0) := by decide +kernel

/-- R171: the seed is KS[0] above KS[1]. -/
theorem test_seedExtract :
    run 0x23 { State.reset with ctx.ks := tabulate fun i => BitVec.ofNat 32 (i.val + 1) }
        (fun t => (t.ctx.seedHi, t.ctx.seedLo, t.ctx.skw[7])) = some (1, 2, 8) := by decide +kernel

/-- R172. -/
theorem test_finalAbsorb :
    run 0x24 { State.reset with
        ctx.fm := Vector.replicate 8 0x811C9DC5, ctx.skw := Vector.replicate 8 3,
        ctx.ks := Vector.replicate 25 9 }
        (fun t => (t.ctx.ks[7], t.ctx.ks[8], t.ctx.ks[15], t.ctx.ks[16])) =
      some (0x811C9DC5, 3, 3, 0) := by decide +kernel

/-- R173's example. -/
theorem test_digestExtract :
    run 0x25 { State.reset with ctx.ks := tabulate fun i => BitVec.ofNat 32 (i.val + 1) }
        (fun t => (t.ctx.dg[0], t.ctx.dg[7])) = some (1, 8) := by decide +kernel

/-- B5. -/
theorem test_mixFill :
    run 0x30 State.reset (fun t => (t.ctx.lm[0][3], t.ctx.lm[15][31], t.ctx.kiss)) =
      some (0x5CAF6E91, 0xDC58FB43, ⟨0x4A1FA019, 0x1A907930, 0xD3980E11, 0xB5698C62⟩) := by
  decide +kernel

/-- R192's example, after MIX_FILL with SEED = 0. -/
theorem test_mixReduce :
    run 0x31 { State.reset with ctx := Ctx.zero.mixFill .xor }
        (fun t => (t.ctx.mx[0], t.ctx.mx[15])) = some (0x4F890FC2, 0xC8DCBD4F) := by decide +kernel

/-- R193's example. -/
theorem test_loopSeed :
    run 0x32 State.reset (fun t => (t.ctx.loopIdx, t.ctx.kiss)) = some (0, kissA1) := by
  decide +kernel

theorem test_loopSeed_63 : run 0x003F0032 State.reset (·.ctx.loopIdx) = some 63 := by decide +kernel

/-- R194's example. -/
theorem test_cacheMix :
    run 0x33 { State.reset with
        cacheValid := true, cache := (Vector.replicate 4096 0).set 0 (dagB 0), ctx.kiss := kissA1 }
        (fun t => (t.ctx.mx[7], t.ctx.mx[0], t.ctx.kiss)) =
      some (0x050C5D1F, 0, ⟨0x5E124A82, 0x276BA791, 0x78C518A7, 0xD7866774⟩) := by decide +kernel

/-- B9: CACHE_MIX while CACHE_VALID = 0. -/
theorem test_cacheMix_no_cache :
    run 0x33 State.reset (·.statusWord) = some 0x00005502 := by decide +kernel

/-- B5. -/
theorem test_mathMix :
    run 0x34 { State.reset with
        ctx.kiss := kissA1, ctx.mx := tabulate fun l => 0x01010101 * BitVec.ofNat 32 l.val }
        (fun t => (t.ctx.mx[15], t.ctx.mx[14])) = some (0xF0F01C76, 0x0E0E0E0E) := by decide +kernel

/-- R196's example. -/
theorem test_dagMix_0 :
    run 0x35 (configB 0x100000000 ((List.range 16).map dagB))
        (fun t => (t.ctx.mx.toList, t.ctx.kiss)) =
      some ([0x050C5D1F, 0x040C5B8C, 0x070C6045, 0, 0, 0x000C5540, 0x030C59F9, 0, 0, 0x0C0C6824, 0, 0,
        0x090C636B, 0x080C61D8, 0, 0x0A0C64FE], ⟨0x45B12B0E, 0x16315199, 0x113BEFCF, 0x831AF9D2⟩) := by
  decide +kernel

/-- B5: DAG_MIX 5 reads item 370. -/
theorem test_dagMix_5 :
    run 0x00050035 { configB (0x100000000 + 64 * 370) ((List.range 16).map fun k => dagB (16 * 370 + k))
        with ctx.loopIdx := 3, ctx.mx := tabulate fun l => BitVec.ofNat 32 l.val }
        (fun t => t.ctx.mx.toList) =
      some [0, 0x28EEACCB, 0x27EEAB3A, 0x80CC0FD3, 0x29EEAE5A, 0x24EEA67F, 0x23EEA4EE, 0x26EEA9A2, 0,
        0x2863A1CB, 0x1FEE9EAA, 0x22EEA35B, 4, 5, 0x2BEEB18A, 0xBFFCAD93] := by
  decide +kernel

/-- R197's example. -/
theorem test_mixUpdate :
    run 0x36 { State.reset with ctx.mx := tabulate fun l => BitVec.ofNat 32 l.val }
        (fun t => (t.ctx.lm[3][0], t.ctx.lm[3][31])) = some (0x030004B9, 0x030004B9) := by
  decide +kernel

/-- DAG-B as a hash reads it. -/
def envB : HashEnv where
  params := Params.default
  cache := tabulate fun j => dagB j.val
  items := 1024
  item := fun i => some (tabulate fun k => dagB (16 * i + k.val))

/-- The context after B5's MIX_FILL (header HDR-B, nonce 1). -/
def mixedB : Ctx := { Ctx.zero with seedHi := 0x4B08DA7C, seedLo := 0x5DB4D55B }.mixFill .xor

/-- B5's trace of LOOP_ITER 0 on DAG-B. -/
theorem test_loopIter : (mixedB.loopIter envB 0).map (fun c => c.mx[0]) = some 0xFBC656B3 := by
  decide +kernel

/-- B9: E_CONFIG before E_NOCACHE. -/
theorem test_loopIter_config_first :
    run 0x37 State.reset (·.statusWord) = some 0x00004402 := by decide +kernel

/-- R199's example, after MIX_FILL with SEED = 0. -/
theorem test_finalReduce :
    run 0x38 { State.reset with ctx := Ctx.zero.mixFill .xor }
        (fun t => (t.ctx.fm[0], t.ctx.fm[7])) = some (0xB50C8F0B, 0xA16BC045) := by decide +kernel

/-- R231's example, with DAG-B's first words. -/
theorem test_cacheLoad :
    run 0x40 { okDag with dag := placed 0 ((List.range 4).map dagB) }
        (fun t => (t.cache[0], t.cache[3], t.cache[4], t.statusWord)) =
      some (0x050C5D1F, 0x060C5EB2, 0, 0x0000000A) := by decide +kernel

/-- R231: a fault of the preload, E_MEM with CACHE_VALID cleared. -/
theorem test_cacheLoad_fault :
    run 0x40 { okDag with params.dagFaults := [⟨0x3FFF, 0x4000⟩], cacheValid := true }
        (·.statusWord) = some 0x00006602 := by decide +kernel

/-- R233, R272: HASH on a reset block. -/
theorem test_hash_config : run 0x41 State.reset (·.statusWord) = some 0x00004402 := by decide +kernel

theorem test_hash_fault :
    run 0x41 { okDag with params.dagFaults := [⟨0, 1⟩], res := 7 } (·.statusWord) =
      some 0x00006602 := by decide +kernel

/-- B7: word 6 decides. -/
theorem test_targetCmp_word_6 :
    run 0x42 { State.reset with
        res := 5, ctx.dg := #v[0, 0, 0, 0, 0, 0, 0xFFFFFFFF, 0x30000000],
        target := #v[0xFFFFFFFF, 0xFFFFFFFF, 0xFFFFFFFF, 0xFFFFFFFF, 0xFFFFFFFF, 0xFFFFFFFF,
          0xFFFFFFFE, 0x30000000] } (·.res) = some 0 := by decide +kernel

/-- B7: equality is valid. -/
theorem test_targetCmp_equal : run 0x42 State.reset (·.res) = some 1 := by decide +kernel

/-- B8: DAG_SIZE = 0x3FC0. -/
theorem test_search_config :
    run 0x43 { State.reset with dagSizeLo := 0x3FC0, threads := 4, npt := 3 } (·.statusWord) =
      some 0x00004402 := by decide +kernel

/-- R236: BUSY and CACHE_VALID are 1 once the preload is done. -/
theorem test_search_starts :
    run 0x43 { okDag with threads := 2, npt := 3, found := true }
        (fun t => (t.statusWord, t.engine)) =
      some (0x00000009, .searching ⟨[⟨0, true⟩, ⟨0, true⟩], [false], false, false⟩) := by
  decide +kernel

/-! ### A running SEARCH and the host -/

/-- A SEARCH that runs: `n` threads of `npt` nonces each, one group, every thread live, and an engine
step next. -/
def searching (n : Nat) (npt : Word) (abort memErr : Bool) : State :=
  { okDag with
    threads := BitVec.ofNat 32 n, npt := npt, cacheValid := true
    engine := .searching ⟨List.replicate n ⟨0, true⟩, [false], abort, memErr⟩
    inputs := [.engine 0] }

/-- B8's empty range: no live thread, so the next step completes the SEARCH with E_NONE. -/
theorem test_search_completes_empty :
    see (·.statusWord) (step { searching 0 3 false false with engine := .searching ⟨[], [], false, false⟩ }) =
      some 0x0000000A := by decide +kernel

/-- R239, R242: a thread exits after an abort; R243: the SEARCH then completes with E_ABORTED. -/
theorem test_search_aborted :
    (see (·.engine) (step (searching 1 3 true false)) =
      some (.searching ⟨[⟨0, false⟩], [false], true, false⟩)) ∧
    (see (·.statusWord) (step { searching 1 3 true false with
      engine := .searching ⟨[⟨0, false⟩], [false], true, false⟩ }) = some 0x0000770A) := by
  decide +kernel

/-- R243, R277: at a SEARCH's E_MEM a committed result stays. -/
theorem test_search_fault_keeps_commit :
    see (fun t => (t.statusWord, t.rnonceLo, t.rhash[7], t.rmix[0], t.res))
      (step { searching 1 3 false true with
        engine := .searching ⟨[⟨0, false⟩], [true], false, true⟩, found := true, rnonceLo := 5
        rhash := Vector.replicate 8 6, rmix := Vector.replicate 8 7, res := 8 }) =
      some (0x0000660E, 5, 6, 7, 8) := by decide +kernel

/-- R244 (d): without a commit a SEARCH's E_MEM leaves an RNONCE of 0. -/
theorem test_search_fault_without_commit :
    see (fun t => (t.statusWord, t.rnonceLo, t.rnonceHi))
      (step { searching 1 3 false true with
        engine := .searching ⟨[⟨0, false⟩], [false], false, true⟩ }) =
      some (0x0000660A, 0, 0) := by decide +kernel

/-- B9: RUN 000000FF. -/
theorem test_illegal_status : run 0xFF State.reset (·.statusWord) = some 0x00001102 := by
  decide +kernel

/-- R27, R273: a host write of CMD while idle is accepted. -/
theorem test_write_cmd :
    see (fun t => (t.statusWord, t.cmd))
      (step { State.reset with done := true, inputs := [.hostWrite 4 0x10 0x43] }) =
      some (1, 0x43) := by decide +kernel

/-- B9: a write to OPA while a command runs. -/
theorem test_write_busy :
    see (fun t => (t.opa, t.sticky))
      (step { State.reset with engine := .accepted false, inputs := [.hostWrite 4 0x14 9] }) =
      some (0, .busy) := by decide +kernel

/-- B9: a write to DAG_SIZE_LO of the same value clears CACHE_VALID. -/
theorem test_write_dagSize :
    see (·.statusWord) (step { okDag with
      done := true, cacheValid := true, inputs := [.hostWrite 4 0x48 0x4000] }) = some 2 := by
  decide +kernel

/-- R22, R23, R52: ID, LM[15][31] and a reserved offset. -/
theorem test_read_registers :
    see (·.rdata) (step { State.reset with inputs := [.hostRead 4 0] }) = some 0x4B415750 ∧
    see (·.rdata) (step { State.reset with
      ctx := Ctx.zero.mixFill .xor, inputs := [.hostRead 4 0xFFC] }) = some 0xDC58FB43 ∧
    see (·.rdata) (step { State.reset with rdata := 3, inputs := [.hostRead 4 0x70] }) = some 0 := by
  decide +kernel

/-- B10: PARAM. -/
theorem test_param :
    ([(.doc, .xor), (.std, .xor), (.doc, .add), (.std, .add)] : List (RcTable × KissCombine)).map
      (fun p => { State.reset with
        params.rcTable := p.1, params.kissCombine := p.2 }.readReg .param) = [0, 1, 2, 3] := by
  decide +kernel

/-- R61, R291: host accesses the model refuses. -/
theorem test_refused_accesses :
    step { State.reset with inputs := [.hostRead 1 0] } = .refused .accessWidth ∧
    step { State.reset with inputs := [.hostRead 4 2] } = .refused .misalignedAccess ∧
    step { State.reset with inputs := [.hostRead 4 0x5000] } = .refused .outsideAperture := by
  refine ⟨rfl, rfl, rfl⟩

/-! ### Witnesses of the statements' hypotheses -/

/-- A state of a readable DAG: no byte faults. -/
theorem dagClear_of_no_faults {s : State} (h : s.params.dagFaults = []) : s.dagClear := by
  intro a _ _
  rw [dagFault, h]
  rfl

/-- The words a primitive or any other command is selected by. -/
theorem witness_Selects :
    (0x12341F01 : Word) &&& 0x0000E0FF = 0x01 ∧ (0x00001521 : Word) &&& 0x0000E0FF = 0x21 ∧
      (0xFFFF1F35 : Word) &&& 0x0000E0FF = 0x35 ∧ (0x003F0032 : Word) &&& 0x0000E0FF = 0x32 := by
  decide

theorem witness_KissNextStepsGenerator :
    State.reset.params.kissCombine = .xor ∧
      { State.reset with params.kissCombine := .add }.params.kissCombine = .add := by decide

/-- Each clause at its boundary round. -/
theorem witness_KeccakRoundAppliesFourSteps :
    (21 : BitVec 5).toNat < 22 ∧ 22 ≤ (22 : BitVec 5).toNat := by decide

/-- The walk and the LFSR exist; bit 5 of a round constant is none of those the LFSR gives. -/
theorem witness_KeccakTablesFollowWalkAndLfsr :
    (∃ walk : Nat → Fin 5 × Fin 5, walk 0 = (1, 0) ∧
      (∀ t, walk (t + 1) = ((walk t).2, 2 * (walk t).1 + 3 * (walk t).2)) ∧ 23 < 24) ∧
    (∃ lfsr : Nat → BitVec 8, lfsr 0 = 1 ∧
      ∀ n, lfsr (n + 1) = (lfsr n <<< 1) ^^^ (if (lfsr n).getLsbD 7 then 0b01110001 else 0)) ∧
    ∀ j, j < 6 → 5 ≠ 2 ^ j - 1 :=
  ⟨⟨fun t => Nat.rec (1, 0) (fun _ p => (p.2, 2 * p.1 + 3 * p.2)) t, rfl, fun _ => rfl, by decide⟩,
    ⟨fun n => Nat.rec 1 (fun _ v => (v <<< 1) ^^^ (if v.getLsbD 7 then 0b01110001 else 0)) n, rfl,
      fun _ => rfl⟩, by decide⟩

theorem witness_CacheMixMergesCacheWord :
    State.reset.cacheValid = false ∧ (searching 1 1 false false).cacheValid = true := by decide

/-- DAG_MIX 0 on these states reads the item of bytes 0 to 63: byte 64 faults, then byte 63. -/
theorem witness_DagMixMergesOneItem :
    State.reset.dagCfgOK = false ∧
    ((fnv1a okDag.ctx.loopIdx okDag.ctx.mx[0]).toNat % (okDag.dagSize.toNat / 64) = 0) ∧
    (∃ s : State, s = { okDag with params.dagFaults := [⟨64, 65⟩] } ∧ s.dagCfgOK = true ∧
      ∀ x, 0 ≤ x → x < 0 + 64 → dagFault s.params x = false) ∧
    ∃ s : State, s = { okDag with params.dagFaults := [⟨63, 64⟩] } ∧ s.dagCfgOK = true ∧
      dagFault s.params 63 = true := by
  refine ⟨by decide +kernel, by decide +kernel, ⟨_, rfl, by decide +kernel, ?_⟩,
    ⟨_, rfl, by decide +kernel, by decide +kernel⟩⟩
  intro x _ h
  simp [dagFault]
  omega

theorem witness_LoopIterIsItsCommandsInOrder :
    ∃ s : State, s.dagCfgOK = true ∧ s.cacheValid = true ∧ s.dagClear :=
  ⟨{ okDag with cacheValid := true }, by decide +kernel, rfl, dagClear_of_no_faults rfl⟩

theorem witness_ConfigErrorComesFirst :
    readsDag .search = true ∧ State.reset.dagCfgOK = false ∧
      readsDag (.loopIter 63) = true ∧ okDag.dagCfgOK = true ∧ okDag.cacheValid = false := by
  decide +kernel

/-- The byte after the preload may fault; its last byte may not. -/
theorem witness_CacheLoadReadsFirstSixteenKiB :
    State.reset.dagCfgOK = false ∧
    (∃ s : State, s = { okDag with params.dagFaults := [⟨16384, 16385⟩] } ∧ s.dagCfgOK = true ∧
      ∀ x, s.dagBase.toNat ≤ x → x < s.dagBase.toNat + 16384 → dagFault s.params x = false) ∧
    ∃ s : State, s = { okDag with params.dagFaults := [⟨16383, 16384⟩] } ∧ s.dagCfgOK = true ∧
      s.dagBase.toNat ≤ 16383 ∧ 16383 < s.dagBase.toNat + 16384 ∧
      dagFault s.params 16383 = true := by
  refine ⟨by decide +kernel, ⟨_, rfl, by decide +kernel, ?_⟩,
    ⟨_, rfl, by decide +kernel, by decide +kernel, by decide +kernel, by decide +kernel⟩⟩
  intro x _ h
  have h0 : { okDag with params.dagFaults := [⟨16384, 16385⟩] }.dagBase.toNat = 0 := by decide +kernel
  rw [h0] at h
  simp [dagFault]
  omega

theorem witness_HashEqualsStepByStepProgram : okDag.dagCfgOK = true ∧ okDag.dagClear :=
  ⟨by decide +kernel, dagClear_of_no_faults rfl⟩

/-- A DAG whose first byte faults. -/
def faultDag : State := { okDag with params.dagFaults := [⟨0, 1⟩] }

/-- What was seen of a step's next state holds of one. -/
theorem next_of_see {α : Type} {f : State → α} {o : Outcome} {a : α} (h : see f o = some a) :
    ∃ t, o = .next t ∧ f t = a := by
  cases o with
  | next t => exact ⟨t, rfl, by injection h⟩
  | fault r => cases h
  | refused r => cases h

/-- CACHE_LOAD, HASH and DAG_MIX on a DAG whose first byte faults; LOOP_ITER's premises; the last byte of
the preload. -/
theorem witness_DagFaultEndsCommandKeepingOthers :
    ({ okDag with cacheValid := true }.dagCfgOK = true ∧ ∃ s : State,
      s = { okDag with params.dagFaults := [⟨16383, 16384⟩] } ∧ s.dagCfgOK = true ∧
      s.dagBase.toNat ≤ 16383 ∧ 16383 < s.dagBase.toNat + 16384 ∧
      dagFault s.params 16383 = true) ∧
    faultDag.dagCfgOK = true ∧ faultDag.preload = none ∧
      ∀ i ∈ [Instr.cacheLoad, .hash, .dagMix 0], readsDag i = true ∧
        ∃ t, exec i faultDag = .next t ∧ (t.err, t.engine) = (.mem, .idle) := by
  have h : requestFaults faultDag.params faultDag.dagBase.toNat 16384 = true := by decide +kernel
  refine ⟨⟨by decide +kernel, _, rfl, by decide +kernel, by decide +kernel, by decide +kernel,
    by decide +kernel⟩, by decide +kernel, by simp only [State.preload, h, if_true], fun i hi => ?_⟩
  simp only [List.mem_cons, List.not_mem_nil, or_false] at hi
  rcases hi with rfl | rfl | rfl
  all_goals exact ⟨rfl, next_of_see (by decide +kernel)⟩

/-- SEARCH with a bad configuration; accepted, and aborted since, on a DAG whose first 16384 bytes answer
and whose next byte does not; on one whose last byte of the preload faults. -/
theorem witness_SearchStartsItsThreads :
    State.reset.dagCfgOK = false ∧
    (∃ s : State, s = { okDag with
        engine := .accepted true, threads := 33, params.dagFaults := [⟨16384, 16385⟩] } ∧
      s.dagCfgOK = true ∧
      (∀ x, s.dagBase.toNat ≤ x → x < s.dagBase.toNat + 16384 → dagFault s.params x = false) ∧
      groupCount s.threads.toNat s.params.groupSize = 2) ∧
    ∃ s : State, s = { okDag with params.dagFaults := [⟨16383, 16384⟩] } ∧ s.dagCfgOK = true ∧
      s.dagBase.toNat ≤ 16383 ∧ 16383 < s.dagBase.toNat + 16384 ∧
      dagFault s.params 16383 = true :=
  ⟨by decide +kernel, ⟨_, rfl, by decide +kernel, fun x _ h => by
      have h0 : okDag.dagBase.toNat = 0 := by decide +kernel
      have h : x < okDag.dagBase.toNat + 16384 := h
      simp [dagFault]
      omega, by decide +kernel⟩,
    ⟨_, rfl, by decide +kernel, by decide +kernel, by decide +kernel, by decide +kernel⟩⟩

theorem witness_EveryLiveThreadCanStepNext :
    ∃ (s : State) (r : Search), s.engine = .searching r ∧ (r.thread 1).live = true :=
  ⟨searching 2 1 false false, _, rfl, rfl⟩

/-- A readable DAG gives every nonce a hash. -/
theorem kawHash_total {s : State} (hok : s.dagCfgOK = true) (hc : s.dagClear) (n : DWord) :
    ∃ dg fm, kawHash s.hashEnv s.header n = some (dg, fm) := by
  obtain ⟨c, h, -⟩ := runHash_some (Nat.lt_of_lt_of_le (by decide) (dagItems_pos hok)) (hashEnv_item_clear hc) s.header
    (lo32 n) (hi32 n) Ctx.zero
  exact ⟨c.dg, c.fm, by rw [kawHash, h]; rfl⟩

/-- A hash context whose every item read faults has no hash. -/
theorem runHash_none {env : HashEnv} (h : ∀ idx, idx < 256 → env.item idx = none)
    (hp : env.items = 256) (header : Vector Word 8) (lo hi : Word) (c : Ctx) :
    c.runHash env header lo hi = none := by
  have hd : ∀ (arg : BitVec 16) (c : Ctx), c.dagMix env arg = none := by
    intro arg c
    rw [Ctx.dagMix, h _ (by rw [hp]; exact Nat.mod_lt _ (by decide))]
  have hl : ∀ (arg : BitVec 16) (c : Ctx), c.loopIter env arg = none := by
    intro arg c
    rw [Ctx.loopIter, List.range_succ_eq_map, List.foldlM_cons, hd]
    rfl
  rw [Ctx.runHash, List.range_succ_eq_map, List.foldlM_cons, hl]
  rfl

/-- A running SEARCH on a DAG whose every byte faults. -/
def faultSearch : State := { searching 2 3 false false with params.dagFaults := [⟨0, 2 ^ 64⟩] }

theorem faultSearch_none (n : DWord) : kawHash faultSearch.hashEnv faultSearch.header n = none := by
  have hb : faultSearch.dagBase.toNat = 0 := by decide +kernel
  rw [kawHash, runHash_none (fun idx hi => ?_) (by decide +kernel)]
  · rfl
  · refine if_pos ?_
    rw [hb]
    simp [requestFaults, faultSearch]
    omega

theorem wordsNat_lt (v : Vector Word 8) : wordsNat v < 2 ^ 256 := by
  have h : ∀ l : List Word,
      l.foldr (fun w acc => w.toNat + 2 ^ 32 * acc) 0 < 2 ^ (32 * l.length) := by
    intro l
    induction l with
    | nil => decide
    | cons w l ih =>
      have hw : w.toNat < 2 ^ 32 := w.isLt
      rw [List.foldr_cons, List.length_cons, Nat.mul_add, Nat.pow_add, Nat.mul_comm (2 ^ _)]
      omega
  have := h v.toList
  rwa [Vector.length_toList] at this

/-- A running SEARCH of one thread and one nonce, every digest valid. -/
def easySearch (start : Word) : State :=
  { searching 1 1 false false with startLo := start, target := Vector.replicate 8 0xFFFFFFFF }

theorem easySearch_valid (start : Word) (dg : Vector Word 8) :
    wordsNat dg ≤ wordsNat (easySearch start).target := by
  have h : wordsNat (easySearch start).target = 2 ^ 256 - 1 := by
    show wordsNat (Vector.replicate 8 0xFFFFFFFF) = _
    decide +kernel
  have := wordsNat_lt dg
  omega

theorem easySearch_clear (start : Word) : (easySearch start).dagClear := dagClear_of_no_faults rfl

/-- A thread step's premises, and each of its outcomes: an exit, a fault, a hit, and a miss on nonce 0. -/
theorem witness_ThreadStepFollowsItsNonce :
    (∃ (s : State) (r : Search), s = searching 2 3 false false ∧ r = ⟨[⟨0, true⟩, ⟨2, true⟩], [true], false, false⟩ ∧
      1 < r.thr.length ∧ (r.thread 1).live = true ∧ (r.thread 1).k < s.npt.toNat ∧
      r.gf[1 / s.params.groupSize]? = some true) ∧
    (∀ n, kawHash faultSearch.hashEnv faultSearch.header n = none) ∧
    (∃ dg fm, kawHash (easySearch 1).hashEnv (easySearch 1).header 1 = some (dg, fm) ∧
      wordsNat dg ≤ wordsNat (easySearch 1).target ∧ (1 : DWord) ≠ 0) ∧
    ∃ dg fm, kawHash (easySearch 0).hashEnv (easySearch 0).header 0 = some (dg, fm) ∧
      ¬ (wordsNat dg ≤ wordsNat (easySearch 0).target ∧ (0 : DWord) ≠ 0) := by
  refine ⟨⟨_, _, rfl, rfl, by decide +kernel, by decide +kernel, by decide +kernel, by decide +kernel⟩,
    faultSearch_none, ?_, ?_⟩
  · obtain ⟨dg, fm, h⟩ := kawHash_total (by decide +kernel) (easySearch_clear 1) 1
    exact ⟨dg, fm, h, easySearch_valid 1 dg, by decide⟩
  · obtain ⟨dg, fm, h⟩ := kawHash_total (by decide +kernel) (easySearch_clear 0) 0
    exact ⟨dg, fm, h, fun h => h.2 rfl⟩

theorem witness_CommitWritesOnceFromZero :
    (State.reset.rnonceLo = 0 ∧ State.reset.rnonceHi = 0) ∧
      { State.reset with rnonceHi := 1 }.rnonceHi ≠ 0 := by decide

/-- A well-formed running SEARCH. -/
theorem wf_of {s : State} {r : Search} (he : s.engine = .searching r) (hd : s.dag = [])
    (h : Search.wf s r) : s.wf := by
  refine ⟨by rw [hd]; rfl, fun r' hr => ?_⟩
  rw [he] at hr
  cases hr
  exact h

/-- A SEARCH without threads. -/
def noThreads : State :=
  { searching 0 3 false false with engine := .searching ⟨[], [], false, false⟩ }

theorem noThreads_wf : noThreads.wf :=
  wf_of rfl rfl ⟨by decide +kernel, by decide +kernel, fun _ => Nat.zero_le _, by decide +kernel,
    fun _ => rfl⟩

/-- The three cases, with a step that is not a reset; a fault with a commit, and with an RNONCE of 0. -/
theorem witness_SearchKeepsNonzeroResult :
    (∃ t, step { searching 1 1 false true with found := true, rnonceHi := 1 } = .next t ∧
      (t.rnonceHi, t.found) = (1, true)) ∧
    (∃ t, step (searching 1 0 false true) = .next t ∧ (t.rnonceHi, t.rnonceLo) = (0, 0)) ∧
    ({ searching 1 1 true false with rnonceHi := 1 }.rnonce ≠ 0 ∧
      ∃ t, step { searching 1 1 true false with rnonceHi := 1 } = .next t ∧ t.rnonceHi = 1) ∧
    (noThreads.wf ∧ noThreads.threads = 0 ∧ ∃ t, step noThreads = .next t ∧ t.rnonceHi = 0) ∧
    ((searching 1 0 false false).npt = 0 ∧
      ∃ t, step (searching 1 0 false false) = .next t ∧ t.rnonceHi = 0) ∧
    ∀ rest, (searching 1 0 false false).inputs ≠ .reset :: rest :=
  ⟨next_of_see (by decide +kernel), next_of_see (by decide +kernel),
    ⟨by decide +kernel, next_of_see (by decide +kernel)⟩,
    ⟨noThreads_wf, by decide +kernel, next_of_see (by decide +kernel)⟩,
    ⟨by decide +kernel, next_of_see (by decide +kernel)⟩, fun _ h => by cases h⟩

/-- A SEARCH whose one thread has found nonce 1: its state is well formed and its result is sound. -/
theorem witness_StepKeepsSearchResultSound :
    ∃ s t : State, s.wf ∧ s.resultSound ∧ s.found = true ∧ step s = .next t := by
  obtain ⟨dg, fm, h⟩ := kawHash_total (by decide +kernel) (easySearch_clear 1) 1
  let r : Search := ⟨[⟨0, false⟩], [true], false, false⟩
  let s : State := { easySearch 1 with
    found := true, rnonceLo := 1, rhash := dg, rmix := fm, engine := .searching r }
  have hn : s.nonceOf 0 0 = 1 := by
    show (easySearch 1).nonceOf 0 0 = 1
    decide +kernel
  have hr : s.rnonce = 1 := by
    show pair (easySearch 1).rnonceHi 1 = 1
    decide +kernel
  have hdead : ∀ t, (r.thread t).live = false := by
    intro t
    match t with
    | 0 => rfl
    | t + 1 => rfl
  have hk : kawHash s.hashEnv s.header 1 = some (dg, fm) := h
  have hh : s.hitAt 0 0 := by
    refine ⟨dg, fm, by rw [hn]; exact hk, ?_⟩
    have hv := easySearch_valid 1 dg
    rw [hn]
    simp [isHit, digestValid]
    exact hv
  have hone : (easySearch 1).threads.toNat = 1 ∧ (easySearch 1).npt.toNat = 1 := by decide +kernel
  obtain ⟨t, ht⟩ : ∃ t, step s = .next t :=
    ⟨_, (searchStep_done hdead 0 (s.popInput [])).trans (finishSearch_eq r _)⟩
  refine ⟨s, t, wf_of rfl rfl ⟨hone.1.symm, ?_, ?_, ?_, fun _ => rfl⟩, ?_, rfl, ht⟩
  · show 1 = groupCount (easySearch 1).threads.toNat (easySearch 1).params.groupSize
    decide +kernel
  · intro t
    match t with
    | 0 => exact Nat.zero_le _
    | t + 1 => exact Nat.zero_le _
  · show (easySearch 1).dagCfgOK = true
    decide +kernel
  · intro r' he
    cases he
    refine ⟨fun t ht => absurd ((hdead t).symm.trans ht) Bool.false_ne_true, fun _ => ?_⟩
    exact ⟨0, 0, ⟨hone.1.ge, hone.2.ge, hh, fun j hj => absurd hj (Nat.not_lt_zero j)⟩,
      by rw [hr, hn], by rw [hr]; exact hk⟩

/-- A running SEARCH with its own engine event to come, and nothing else. -/
theorem witness_SearchTerminates :
    ∃ (s t : State) (r : Search), s.engine = .searching r ∧ s.engineNext ∧ s.engineOnly ∧
      step s = .next t ∧ t.rnonceHi = 0 := by
  obtain ⟨t, h⟩ := next_of_see (o := step (searching 2 3 true false)) (f := (·.rnonceHi)) (a := 0)
    (by decide +kernel)
  exact ⟨_, t, _, rfl, .inr ⟨0, [], rfl⟩, fun e he => ⟨0, List.mem_singleton.1 he⟩, h⟩

/-- No live thread, with and without a fault, with and without a commit; RNONCE is 0. -/
theorem witness_SearchCompletesWithOutcome :
    ∀ memErr found, ∃ (s : State) (r : Search), s.engine = .searching r ∧ s.engineNext ∧
      (∀ t, (r.thread t).live = false) ∧ r.memErr = memErr ∧ s.found = found ∧ s.rnonce = 0 := by
  intro memErr found
  refine ⟨{ searching 1 1 true memErr with
      engine := .searching ⟨[⟨1, false⟩], [false], true, memErr⟩, found := found },
    _, rfl, .inr ⟨0, [], rfl⟩, fun t => ?_, rfl, rfl, by show pair 0 0 = 0; decide⟩
  match t with
  | 0 => rfl
  | t + 1 => rfl

theorem witness_SearchLeavesDirectContext :
    (∃ t, exec .search okDag = .next t ∧ t.found = false) ∧
    ∃ (s t : State) (r : Search), s.engine = .searching r ∧ s.engineNext ∧ step s = .next t ∧
      t.rnonceHi = 0 :=
  ⟨next_of_see (by decide +kernel), by
    obtain ⟨s, t, r, h₁, h₂, -, h₃⟩ := witness_SearchTerminates
    exact ⟨s, t, r, h₁, h₂, h₃⟩⟩

theorem witness_DecodesExactlyLegalWords : legalWord 0x1F01 = true ∧ legalWord 0x2001 = false := by
  decide

/-- FNV1A uses neither field, DAG_MIX uses ARG, KECCAK_ROUND uses RND. -/
theorem witness_IgnoredFieldsDoNotMatter :
    (decode 0x00000001 = .ok .fnv1a ∧ (0x00000001 : Word) &&& 0x0000E0FF = 0x12341F01 &&& 0x0000E0FF ∧
      usesRnd .fnv1a = false ∧ usesArg .fnv1a = false) ∧
    (decode 0xFFFF0035 = .ok (.dagMix 0xFFFF) ∧
      (0xFFFF0035 : Word) &&& 0x0000E0FF = 0xFFFF1F35 &&& 0x0000E0FF ∧
      argField 0xFFFF0035 = argField 0xFFFF1F35 ∧ usesRnd (.dagMix 0xFFFF) = false) ∧
    decode 0x00001F21 = .ok (.keccakRound 31) ∧
      (0x00001F21 : Word) &&& 0x0000E0FF = 0xFFFF1F21 &&& 0x0000E0FF ∧
      rndField 0x00001F21 = rndField 0xFFFF1F21 ∧ usesArg (.keccakRound 31) = false := by
  decide

/-- An accepted legal word with no event queued, and an accepted illegal word with an engine event. -/
theorem witness_StepRunsAcceptedCommand :
    (∃ s : State, s = { State.reset with engine := .accepted false, cmd := 0x00001621 } ∧
      s.engine = .accepted false ∧ s.engineNext ∧ decode s.cmd = .ok (.keccakRound 22)) ∧
    ∃ s : State, s = { State.reset with
        engine := .accepted true, cmd := 0x00008043, inputs := [.engine 7, .reset] } ∧
      s.engine = .accepted true ∧ s.engineNext ∧ decode s.cmd = .error (.reservedBits 4) :=
  ⟨⟨_, rfl, rfl, .inl rfl, by decide⟩, ⟨_, rfl, rfl, .inr ⟨7, [.reset], rfl⟩, by decide⟩⟩

/-- Another agent's write, below and over a placed byte. -/
theorem witness_StepKeepsWellFormed :
    ∃ s t : State, s = { okDag with dag := [(5, 1)], inputs := [.dagWrite 3 7] } ∧ s.wf ∧
      step s = .next t ∧ t.dag = [(3, 7), (5, 1)] := by
  obtain ⟨t, h⟩ := next_of_see (o := step { okDag with dag := [(5, 1)], inputs := [.dagWrite 3 7] })
    (f := (·.dag)) (a := [(3, 7), (5, 1)]) (by decide +kernel)
  exact ⟨_, t, rfl, ⟨by decide +kernel, fun r h => by cases h⟩, h⟩

theorem witness_BlockNeverWritesDag :
    ∃ s t : State, s.wf ∧ s.inputs = .dagWrite 3 7 :: [] ∧ step s = .next t := by
  obtain ⟨s, t, rfl, h, ht, -⟩ := witness_StepKeepsWellFormed
  exact ⟨_, t, h, rfl, ht⟩

/-- CACHE_LOAD about to run without a valid cache. -/
theorem witness_StaleCacheIsNeverUsed :
    ∃ s t : State, s.wf ∧ s.cacheValid = false ∧ step s = .next t ∧ t.cacheValid = true := by
  obtain ⟨t, h⟩ := next_of_see (o := step (okDag.withFetchWord 32 0x40)) (f := (·.cacheValid))
    (a := true) (by decide +kernel)
  exact ⟨_, t, ⟨rfl, fun r h => by cases h⟩, rfl, h⟩

/-- The first and last reserved offsets, each refused access, and an idle block. -/
theorem witness_RegisterMapRoundTrip :
    (∀ o ∈ [0x70, 0x7FC], o % 4 = 0 ∧ o < 0x5000 ∧ ∀ r : Reg, r.offset ≠ o) ∧
    State.reset.engine = .idle ∧
    (∃ s : State, s.inputs = .hostRead 4 (s.params.apBase + 0x70) :: []) ∧
    (∃ s : State, s.inputs = .hostWrite 4 (s.params.apBase + 0x7FC) 9 :: []) ∧
    ∃ s : State, s.params.apBase ≤ 3 ∧ (3 - s.params.apBase) % 4 ≠ 0 ∧
      s.inputs = .hostRead 4 3 :: [] := by
  refine ⟨fun o ho => ?_, rfl, ⟨{ State.reset with inputs := [.hostRead 4 0x70] }, rfl⟩,
    ⟨{ State.reset with inputs := [.hostWrite 4 0x7FC 9] }, rfl⟩,
    ⟨{ State.reset with inputs := [.hostRead 4 3] }, by decide, by decide, rfl⟩⟩
  simp only [List.mem_cons, List.not_mem_nil, or_false] at ho
  rcases ho with rfl | rfl
  all_goals
    refine ⟨by decide, by decide, fun r => ?_⟩
    cases r <;> simp only [Reg.offset] <;> omega

theorem witness_StatusAndParamLayout :
    ∃ number : Code → Nat, number .none = 0 ∧ number .illegal = 1 ∧ number .arg = 2 ∧
      number .busy = 3 ∧ number .config = 4 ∧ number .noCache = 5 ∧ number .mem = 6 ∧
      number .aborted = 7 :=
  ⟨fun c => c.bits.toNat, by decide⟩

/-- The last word of LM, DAG_SIZE_HI and CMD, written while idle and read back; registers that ignore a
write. -/
theorem witness_IdleWriteIsReadBack :
    (∀ r ∈ [Reg.id, .param, .status, .cache 4095],
      r = .id ∨ r = .param ∨ r = .status ∨ r.isCache = true) ∧
    ∀ r ∈ [Reg.lm 15 31, .dagSizeHi, .cmd], r.writable = true ∧ ∃ s : State, s.engine = .idle ∧
      s.inputs = .hostWrite 4 (s.params.apBase + r.offset) 5 ::
        .hostRead 4 (s.params.apBase + r.offset) :: [] := by
  refine ⟨by decide, fun r hr => ?_⟩
  refine ⟨?_, { State.reset with inputs := [.hostWrite 4 (0 + r.offset) 5, .hostRead 4 (0 + r.offset)] },
    rfl, rfl⟩
  simp only [List.mem_cons, List.not_mem_nil, or_false] at hr
  rcases hr with rfl | rfl | rfl <;> rfl

theorem witness_BusyWriteIsIgnored :
    ∃ s : State, s.engine ≠ .idle ∧ Reg.cmd ≠ .ctrl ∧
      s.inputs = .hostWrite 4 (s.params.apBase + Reg.cmd.offset) 1 :: [] :=
  ⟨{ State.reset with engine := .accepted false, inputs := [.hostWrite 4 0x10 1] }, by decide,
    by decide, rfl⟩

/-- OPA while FNV1A runs, RNONCE_LO while a SEARCH runs, CACHE[0] while NOP runs with a valid cache, and
any register while the block is idle. -/
theorem witness_ReadIsExactOutsideWriteSet :
    State.reset.running = none ∧ Reg.status.isCache = false ∧
    (∃ s : State, s.inputs = .hostRead 4 (s.params.apBase + Reg.status.offset) :: []) ∧
    ({ State.reset with engine := .accepted false, cmd := 1 }.running = some .fnv1a ∧
      writeSet .fnv1a .opa = false ∧ Reg.opa.isCache = false) ∧
    ((searching 1 1 false false).running = some .search ∧ Reg.rnonceLo.isResult = true) ∧
    { okDag with engine := .accepted false, cacheValid := true }.running = some .nop ∧
      writeSet .nop (.cache 0) = false ∧ { okDag with cacheValid := true }.cacheValid = true :=
  ⟨by decide, by decide, ⟨{ State.reset with inputs := [.hostRead 4 0xC] }, rfl⟩, by decide +kernel⟩

/-- CTRL written while idle, while HASH runs, while a SEARCH runs, and while one is accepted. -/
theorem witness_CtrlWriteActs :
    State.reset.running ≠ some .search ∧
    { State.reset with engine := .accepted false, cmd := 0x41 }.running ≠ some .search ∧
    (∃ r, (searching 1 1 false false).engine = .searching r) ∧
    { State.reset with engine := .accepted false, cmd := 0x43 }.running = some .search ∧
    ∃ s : State, s.inputs = .hostWrite 4 (s.params.apBase + 0x8) 3 :: [] :=
  ⟨by decide, by decide, ⟨_, rfl⟩, by decide, { State.reset with inputs := [.hostWrite 4 0x8 3] }, rfl⟩

theorem witness_ResetGivesStatedRegisters :
    ∃ s : State, s.inputs = .reset :: [] ∧ s.engine = .accepted false :=
  ⟨{ State.reset with engine := .accepted false, inputs := [.reset] }, rfl, rfl⟩

end Sys2Proof.Tests
end

section
/-! PROOFS. The layer the host-access and state statements rest on: what a step is for each head of the event
list, and what each event leaves of the environment (20_memory.md R76, R64; 00_scope.md R10). -/

namespace Sys2Proof.Machine

/-! ### The next event -/

theorem step_of_nil {s : State} (h : s.inputs = []) : step s = engineStep none s := by
  rw [step, h]

theorem step_of_cons {s : State} {e : Event} {rest : List Event} (h : s.inputs = e :: rest) :
    step s = act e (s.popInput rest) := by
  rw [step, h]

/-! ### Host accesses -/

section
variable {s : State} {width addr o : Nat} {v : Word} {why : Refusal} {r : Reg}

theorem hostRead_error (ha : s.accessOffset width addr = .error why) :
    hostRead width addr s = .refused why := by
  rw [hostRead, ha]

theorem hostRead_reserved (ha : s.accessOffset width addr = .ok o) (hr : regAt o = none) :
    hostRead width addr s = .next { s with rdata := 0 } := by
  simp only [hostRead, ha, hr]

theorem hostRead_reg (ha : s.accessOffset width addr = .ok o) (hr : regAt o = some r) :
    hostRead width addr s = .next (s.readRegister r) := by
  simp only [hostRead, ha, hr]

theorem hostWrite_error (ha : s.accessOffset width addr = .error why) :
    hostWrite width addr v s = .refused why := by
  rw [hostWrite, ha]

theorem hostWrite_reserved (ha : s.accessOffset width addr = .ok o) (hr : regAt o = none) :
    hostWrite width addr v s = .next s := by
  simp only [hostWrite, ha, hr]

theorem hostWrite_reg (ha : s.accessOffset width addr = .ok o) (hr : regAt o = some r) :
    hostWrite width addr v s = .next (s.writeRegister r v) := by
  simp only [hostWrite, ha, hr]

end

theorem readRegister_cacheValid (s : State) (r : Reg) :
    (s.readRegister r).cacheValid = s.cacheValid := by
  rw [readRegister_eq]

/-- A write of DAG_BASE or DAG_SIZE clears CACHE_VALID (10_state.md R34, R35). -/
theorem writeReg_cacheValid (s : State) (r : Reg) (v : Word) :
    (s.writeReg r v).cacheValid = (s.cacheValid && !r.isDagConfig) := by
  cases r with
  | dagBaseLo | dagBaseHi | dagSizeLo | dagSizeHi => exact (Bool.and_false _).symm
  | _ => exact (Bool.and_true _).symm

/-! ### The environment: DAGMEM and the parameters -/

/-- `t` has the parameters and the DAGMEM of `s`. -/
def SameEnv (s t : State) : Prop := t.params = s.params ∧ t.dag = s.dag

theorem threadStep_sameEnv (t : Nat) (r : Search) (s : State) : SameEnv s (threadStep t r s) := by
  rcases threadStep_cases t r s with h | ⟨-, -, h⟩ | ⟨dg, fm, -, -, -, h⟩ | ⟨-, -, -, -, -, h⟩ <;>
    rw [h]
  case inr.inr.inl => rw [commit_eq]; exact ⟨rfl, rfl⟩
  all_goals exact ⟨rfl, rfl⟩

theorem finishSearch_sameEnv {r : Search} {s t : State} (h : finishSearch r s = .next t) :
    SameEnv s t := by
  rw [finishSearch_eq] at h
  injection h with h
  subst h
  cases r.memErr <;> exact ⟨rfl, rfl⟩

theorem searchStep_sameEnv {choice : Nat} {r : Search} {s t : State}
    (h : searchStep choice r s = .next t) : SameEnv s t := by
  rcases searchStep_cases choice r s with ⟨-, hs⟩ | ⟨u, -, hs⟩ <;> rw [hs] at h
  · exact finishSearch_sameEnv h
  · injection h with h
    exact h ▸ threadStep_sameEnv u r s

theorem engineStep_sameEnv {choice : Option Nat} {s t : State} (h : engineStep choice s = .next t) :
    SameEnv s t := by
  rcases engineStep_cases choice s with
    ⟨-, hs⟩ | ⟨_, i, -, -, hs⟩ | ⟨_, _, -, -, hs⟩ | ⟨r, -, c, n, hs⟩ <;> rw [hs] at h
  · cases h
    exact ⟨rfl, rfl⟩
  · obtain ⟨hp, hd, -⟩ := exec_next h
    exact ⟨hp, hd⟩
  · cases h
    exact ⟨rfl, rfl⟩
  · obtain ⟨hp, hd⟩ := searchStep_sameEnv h
    exact ⟨hp, hd⟩

theorem writeRegister_sameEnv (s : State) (r : Reg) (v : Word) :
    SameEnv s (s.writeRegister r v) := by
  rcases writeRegister_cases s r v with ⟨-, h⟩ | ⟨-, -, h⟩ | ⟨-, -, h⟩ | ⟨-, -, -, h⟩ <;> rw [h]
  · rw [ctrlWrite_eq]
    exact ⟨rfl, rfl⟩
  · exact ⟨rfl, rfl⟩
  · exact ⟨rfl, rfl⟩
  · obtain ⟨hp, hd, -⟩ := writeReg_frame s r v
    exact ⟨hp, hd⟩

/-- A step keeps the environment, or it is another agent's write of one byte (20_memory.md R64, R65). -/
theorem step_sameEnv {s t : State} (h : step s = .next t) :
    SameEnv s t ∨ ∃ a b rest, s.inputs = .dagWrite a b :: rest ∧
      t.params = s.params ∧ t.dag = s.dag.write a.toNat b := by
  rcases step_cases s with ⟨-, choice, hs⟩ | ⟨e, rest, hi, hne, hs⟩ <;> rw [hs] at h
  · obtain ⟨hp, hd⟩ := engineStep_sameEnv h
    exact .inl ⟨hp, hd⟩
  · cases e with
    | engine c => exact absurd rfl (hne c)
    | hostRead w a =>
      obtain ⟨o, -, ⟨-, rfl⟩ | ⟨r, -, rfl⟩⟩ := hostRead_next h
      · exact .inl ⟨rfl, rfl⟩
      · rw [readRegister_eq]
        exact .inl ⟨rfl, rfl⟩
    | hostWrite w a v =>
      obtain ⟨o, -, ⟨-, rfl⟩ | ⟨r, -, rfl⟩⟩ := hostWrite_next h
      · exact .inl ⟨rfl, rfl⟩
      · exact .inl (writeRegister_sameEnv _ r v)
    | dagWrite a b =>
      simp only [act, dagWrite] at h
      split at h
      · cases h
      · cases h
        exact .inr ⟨a, b, rest, hi, rfl, rfl⟩
    | reset =>
      cases h
      exact .inl ⟨rfl, rfl⟩

/-! ### A running SEARCH's records -/

/-- A thread exits without hashing once a DAG read has faulted (44_search.md R239). -/
theorem threadStep_of_memErr {r : Search} (h : r.memErr = true) (t : Nat) (s : State) :
    threadStep t r s = s.setEngine (.searching (r.retire t)) :=
  if_pos (.inl (by simp [Search.exits, h]))

/-- A retirement keeps every thread's next nonce (44_search.md R239). -/
theorem thread_retire_k {r : Search} {t : Nat} (ht : t < r.thr.length) (u : Nat) :
    ((r.retire t).thread u).k = (r.thread u).k := by
  rw [Search.retire, thread_setThread ht]
  split
  · rename_i h
    rw [h]
  · rfl

/-- An advance takes a thread that has a nonce left at most to its last one (44_search.md R239). -/
theorem thread_advance_k_le {r : Search} {t npt : Nat} (ht : t < r.thr.length)
    (hk : (r.thread t).k < npt) (hr : ∀ u, (r.thread u).k ≤ npt) (u : Nat) :
    ((r.advance npt t).thread u).k ≤ npt := by
  rw [Search.advance, thread_setThread ht]
  split
  · exact hk
  · exact hr u

/-- The records a SEARCH starts with have every thread at its first nonce (44_search.md R236). -/
theorem newSearch_thread_k (s : State) (t : Nat) : (s.newSearch.thread t).k = 0 := by
  rw [Search.thread, List.getD_eq_getElem?_getD, State.newSearch, List.getElem?_replicate]
  split <;> rfl

/-- A SEARCH starts with records that fit its registers (10_state.md R50, 44_search.md R236). -/
theorem startsSearch_wf {s t : State} (h : StartsSearch s t) {r : Search}
    (hr : t.engine = .searching r) : Search.wf t r := by
  obtain ⟨rest, -, -, hok, ⟨w, -, rfl⟩ | ⟨-, rfl⟩⟩ := h <;> cases hr
  · exact ⟨List.length_replicate, List.length_replicate,
      fun u => (newSearch_thread_k s u).trans_le (Nat.zero_le _), hok, fun _ => rfl⟩
  · exact ⟨List.length_replicate, List.length_replicate,
      fun u => (newSearch_thread_k s u).trans_le (Nat.zero_le _), hok, fun h => by cases h⟩

/-- A live thread's step keeps the records fitting: its next nonce goes up only while it has one left
(44_search.md R239). -/
theorem threadStep_wf {s : State} {r r' : Search} {t : Nat} (hw : Search.wf s r)
    (hl : (r.thread t).live = true) (hr : (threadStep t r s).engine = .searching r') :
    Search.wf (threadStep t r s) r' := by
  obtain ⟨hthr, hgf, hk, hok, hcv⟩ := hw
  have ht := lt_of_live hl
  have hret : (r.retire t).thr.length = s.threads.toNat := (List.length_set ..).trans hthr
  have hretk : ∀ u, ((r.retire t).thread u).k ≤ s.npt.toNat := fun u =>
    (thread_retire_k ht u).trans_le (hk u)
  rcases threadStep_cases t r s with
    h | ⟨-, -, h⟩ | ⟨dg, fm, -, -, -, h⟩ | ⟨dg, fm, hlt, -, -, h⟩ <;> rw [h] at hr ⊢
  · cases hr
    exact ⟨hret, hgf, hretk, hok, hcv⟩
  · cases hr
    exact ⟨hret, hgf, hretk, hok, fun h => by cases h⟩
  · rw [commit_eq] at hr ⊢
    cases hr
    exact ⟨hret, (List.length_set ..).trans hgf, hretk, hok, hcv⟩
  · cases hr
    exact ⟨(List.length_set ..).trans hthr, hgf, thread_advance_k_le ht hlt hk, hok, hcv⟩

/-- A host access during a SEARCH keeps its records fitting (44_search.md R242). -/
theorem keepsSearch_wf {s t : State} (h : KeepsSearch s t)
    (hw : ∀ r, s.engine = .searching r → Search.wf s r) {r : Search}
    (hr : t.engine = .searching r) : Search.wf t r := by
  obtain ⟨r₀, abort, hs, ht⟩ := h
  rw [ht] at hr ⊢
  cases hr
  exact hw r₀ hs

/-- However a step leaves a SEARCH running, its records fit. -/
theorem step_search_wf {s t : State} (hw : s.wf) (h : step s = .next t) {r : Search}
    (hr : t.engine = .searching r) : Search.wf t r := by
  obtain ⟨-, hsearch⟩ := hw
  rcases step_search h with hn | hstart | ⟨r₀, rest, n, u, hs, hl, rfl⟩ | hkeep
  · exact absurd hr (hn r)
  · exact startsSearch_wf hstart hr
  · exact threadStep_wf (hsearch r₀ hs) hl hr
  · exact keepsSearch_wf hkeep hsearch hr

/-- Settles O50: DAGMEM's form by `step_sameEnv` and `Memory.wf_write`, the records by the ways a step can
leave a SEARCH running (`step_search`). -/
theorem stepKeepsWellFormed : Obligations.StepKeepsWellFormed := by
  intro s t hw h
  refine ⟨?_, fun r hr => step_search_wf hw h hr⟩
  rcases step_sameEnv h with ⟨-, hd⟩ | ⟨a, b, -, -, -, hd⟩ <;> rw [hd]
  · exact hw.1
  · exact Memory.wf_write hw.1 a.isLt

end Sys2Proof.Machine
end

section
/-! PROOFS. What CACHE holds while CACHE_VALID = 0 is never used (93_implementation_defined.md U1, 10_state.md
R49): each operation, run from two states that differ in CACHE alone, leaves states that differ in CACHE
alone, and not at all where it loads or draws CACHE. -/

namespace Sys2Proof.Machine

/-- `s` with other words in CACHE. -/
def State.withCache (words : Vector Word 4096) (s : State) : State := { s with cache := words }

/-- Wherever `o` goes on, `o'` goes on to the same state but for a stale cache. -/
def SameNextButStaleCache (o o' : Outcome) : Prop :=
  ∀ t, o = .next t → ∃ t', o' = .next t' ∧ SameButStaleCache t t'

/-! ### The two ways to agree -/

theorem sameNext_refl (o : Outcome) : SameNextButStaleCache o o :=
  fun t h => ⟨t, h, rfl, fun _ => rfl⟩

theorem sameNext_withCache (t : State) (h : t.cacheValid = false) (words : Vector Word 4096) :
    SameNextButStaleCache (.next t) (.next (t.withCache words)) := by
  intro u hu
  cases hu
  exact ⟨_, rfl, rfl, fun hv => by rw [h] at hv; cases hv⟩

/-! ### What does not read CACHE -/

section
variable (s : State) (words : Vector Word 4096)

@[simp] theorem withCache_engine : (s.withCache words).engine = s.engine := rfl
@[simp] theorem withCache_cmd : (s.withCache words).cmd = s.cmd := rfl
@[simp] theorem withCache_cacheValid : (s.withCache words).cacheValid = s.cacheValid := rfl
@[simp] theorem withCache_inputs : (s.withCache words).inputs = s.inputs := rfl
@[simp] theorem withCache_dagCfgOK : (s.withCache words).dagCfgOK = s.dagCfgOK := rfl
@[simp] theorem withCache_running : (s.withCache words).running = s.running := rfl
@[simp] theorem withCache_busy : (s.withCache words).busy = s.busy := rfl
@[simp] theorem withCache_readingDag : (s.withCache words).readingDag = s.readingDag := rfl

@[simp] theorem withCache_accessOffset (width addr : Nat) :
    (s.withCache words).accessOffset width addr = s.accessOffset width addr := rfl

@[simp] theorem withCache_readsDraw (r : Reg) :
    (s.withCache words).readsDraw r = s.readsDraw r := rfl

@[simp] theorem withCache_preload : (s.withCache words).preload = s.preload :=
  preload_congr rfl rfl rfl

end

/-! ### Host accesses from the other state -/

/-- A host read of CACHE gives a free value, and every other register reads the same (10_state.md R49). -/
theorem readRegister_withCache {s : State} (hv : s.cacheValid = false) (words : Vector Word 4096)
    (r : Reg) :
    (s.withCache words).readRegister r = (s.readRegister r).withCache words := by
  by_cases hr : s.readsDraw r = true
  · simp only [State.readRegister, withCache_readsDraw, hr, if_true]
    rfl
  · have hval : (s.withCache words).readReg r = s.readReg r := by
      cases r with
      | cache j => simp [State.readsDraw, Reg.isCache, hv] at hr
      | _ => rfl
    simp only [State.readRegister, withCache_readsDraw, hr, hval]
    rfl

theorem writeReg_withCache (s : State) (words : Vector Word 4096) (r : Reg) (v : Word) :
    (s.withCache words).writeReg r v = (s.writeReg r v).withCache words := by
  cases r <;> rfl

theorem abort_withCache (s : State) (words : Vector Word 4096) :
    (s.withCache words).abort = s.abort.withCache words := by
  rw [State.abort, State.abort, withCache_engine, withCache_running]
  cases s.engine with
  | idle => rfl
  | accepted a =>
    dsimp only
    split <;> rfl
  | searching r => rfl

theorem ctrlWrite_withCache (s : State) (words : Vector Word 4096) (v : Word) :
    (s.withCache words).ctrlWrite v = (s.ctrlWrite v).withCache words := by
  simp only [ctrlWrite_eq, abort_withCache]
  rfl

theorem writeRegister_withCache (s : State) (words : Vector Word 4096) (r : Reg) (v : Word) :
    (s.withCache words).writeRegister r v = (s.writeRegister r v).withCache words := by
  rw [State.writeRegister, State.writeRegister, withCache_busy, ctrlWrite_withCache,
    writeReg_withCache]
  split_ifs <;> rfl

/-! ### Completion and the acceptance checks -/

section
variable {s : State} (hv : s.cacheValid = false) (words : Vector Word 4096)
include hv

theorem finishRes_staleCache (v : Word) :
    SameNextButStaleCache (finishRes v s) (finishRes v (s.withCache words)) :=
  sameNext_withCache ((s.setRes v).complete .none) hv words

theorem finishCtx_staleCache (c : Ctx) :
    SameNextButStaleCache (finishCtx c s) (finishCtx c (s.withCache words)) :=
  sameNext_withCache ((s.setCtx c).complete .none) hv words

theorem raise_staleCache (e : Code) :
    SameNextButStaleCache (raise e s) (raise e (s.withCache words)) :=
  sameNext_withCache (s.complete e) hv words

/-- A DAG fault draws CACHE where the write set holds it, and no other register's value is CACHE's. -/
theorem memFault_staleCache (ws : Reg → Bool) :
    SameNextButStaleCache (memFault ws s) (memFault ws (s.withCache words)) :=
  sameNext_withCache ((s.clobber ws).complete .mem) hv
    (tabulate fun j => (s.withCache words).drawOrKeep ws (.cache j))

theorem finishDag_staleCache (ws : Reg → Bool) (c : Option Ctx) :
    SameNextButStaleCache (finishDag ws c s) (finishDag ws c (s.withCache words)) := by
  cases c with
  | some c => exact finishCtx_staleCache hv words c
  | none => exact memFault_staleCache hv words ws

theorem requireDag_staleCache {run run' : Outcome} (h : SameNextButStaleCache run run') :
    SameNextButStaleCache (requireDag s run) (requireDag (s.withCache words) run') := by
  cases hok : s.dagCfgOK with
  | true => rwa [requireDag_ok hok, requireDag_ok ((withCache_dagCfgOK s words).trans hok)]
  | false =>
    rw [requireDag_bad hok, requireDag_bad ((withCache_dagCfgOK s words).trans hok)]
    exact raise_staleCache hv words .config

/-- Without a valid cache the body that reads CACHE does not run (60_exceptions.md R272). -/
theorem requireCache_staleCache (run run' : Outcome) :
    SameNextButStaleCache (requireCache s run) (requireCache (s.withCache words) run') := by
  rw [requireCache_bad hv, requireCache_bad ((withCache_cacheValid s words).trans hv)]
  exact raise_staleCache hv words .noCache

/-! ### The commands -/

theorem execCacheLoad_staleCache :
    SameNextButStaleCache (execCacheLoad s) (execCacheLoad (s.withCache words)) := by
  refine requireDag_staleCache hv words ?_
  rw [withCache_preload]
  cases s.preload with
  | some w => exact sameNext_refl _
  | none => exact memFault_staleCache (s := s.dropCache) rfl words _

theorem execHash_staleCache : SameNextButStaleCache (execHash s) (execHash (s.withCache words)) := by
  refine requireDag_staleCache hv words ?_
  rw [withCache_preload]
  cases s.preload with
  | some w => exact sameNext_refl _
  | none => exact memFault_staleCache (s := s.dropCache) rfl words _

theorem execSearch_staleCache :
    SameNextButStaleCache (execSearch s) (execSearch (s.withCache words)) := by
  refine requireDag_staleCache hv words ?_
  rw [withCache_preload]
  cases s.preload with
  | some w => exact sameNext_refl _
  | none => exact sameNext_withCache _ rfl words

theorem exec_staleCache (i : Instr) :
    SameNextButStaleCache (exec i s) (exec i (s.withCache words)) := by
  cases i with
  | nop => exact raise_staleCache hv words .none
  | fnv1a | rotl | rotr | clz | popc | umulhi | rmath | rmerge | targetCmp =>
    exact finishRes_staleCache hv words _
  | kissSeed | keccakF800 | seedAbsorb | seedExtract | finalAbsorb | digestExtract | mixFill
  | mixReduce | loopSeed arg | mathMix | mixUpdate | finalReduce =>
    exact finishCtx_staleCache hv words _
  | kissNext =>
    exact finishCtx_staleCache (s := s.setRes (kissNext s.params.kissCombine s.ctx.kiss).1) hv words _
  | keccakRound rnd =>
    simp only [exec, execKeccakRound]
    split
    · exact finishCtx_staleCache hv words _
    · exact raise_staleCache hv words .arg
  | cacheMix => exact requireCache_staleCache hv words _ _
  | dagMix arg =>
    exact requireDag_staleCache hv words (finishDag_staleCache hv words _ _)
  | loopIter arg => exact requireDag_staleCache hv words (requireCache_staleCache hv words _ _)
  | cacheLoad => exact execCacheLoad_staleCache hv words
  | hash => exact execHash_staleCache hv words
  | search => exact execSearch_staleCache hv words

/-- A SEARCH that runs without a valid cache has faulted, so no thread hashes. -/
theorem searchStep_staleCache {r : Search} (hm : r.memErr = true) (choice : Nat) :
    SameNextButStaleCache (searchStep choice r s) (searchStep choice r (s.withCache words)) := by
  unfold searchStep
  cases r.liveThreads with
  | nil =>
    simp only [finishSearch, hm, if_true]
    exact memFault_staleCache hv words s.searchFaultSet
  | cons t ts =>
    simp only [threadStep_of_memErr hm]
    exact sameNext_withCache (s.setEngine (.searching _)) hv words

theorem engineStep_staleCache (hw : s.wf) (choice : Option Nat) :
    SameNextButStaleCache (engineStep choice s) (engineStep choice (s.withCache words)) := by
  simp only [engineStep, withCache_engine, withCache_cmd]
  cases hs : s.engine with
  | idle => exact sameNext_withCache s hv words
  | accepted abort =>
    cases decode s.cmd with
    | ok i => exact exec_staleCache hv words i
    | error e => exact raise_staleCache hv words .illegal
  | searching r =>
    obtain ⟨-, hsearch⟩ := hw
    obtain ⟨-, -, -, -, hload⟩ := hsearch r hs
    have hm : r.memErr = true := by
      by_contra hm
      exact absurd (hload (by simpa using hm)) (by simp [hv])
    cases choice with
    | some c => exact searchStep_staleCache hv words hm c
    | none =>
      exact searchStep_staleCache (s := { s with fresh := s.fresh + 1 }) hv words hm _

/-! ### Host accesses -/

/-- No host write sets CACHE_VALID. -/
theorem writeRegister_cacheValid (r : Reg) (v : Word) :
    (s.writeRegister r v).cacheValid = false := by
  rcases writeRegister_cases s r v with ⟨-, h⟩ | ⟨-, -, h⟩ | ⟨-, -, h⟩ | ⟨-, -, -, h⟩ <;> rw [h]
  · rw [ctrlWrite_eq]
    exact hv
  · exact hv
  · exact hv
  · rw [writeReg_cacheValid, hv, Bool.false_and]

theorem hostRead_staleCache (width addr : Nat) :
    SameNextButStaleCache (hostRead width addr s) (hostRead width addr (s.withCache words)) := by
  have ha' := withCache_accessOffset s words width addr
  cases ha : s.accessOffset width addr with
  | error why =>
    rw [hostRead_error ha, hostRead_error (ha'.trans ha)]
    exact sameNext_refl _
  | ok o =>
    cases hr : regAt o with
    | none =>
      rw [hostRead_reserved ha hr, hostRead_reserved (ha'.trans ha) hr]
      exact sameNext_withCache { s with rdata := 0 } hv words
    | some r =>
      rw [hostRead_reg ha hr, hostRead_reg (ha'.trans ha) hr, readRegister_withCache hv]
      exact sameNext_withCache _ ((readRegister_cacheValid s r).trans hv) words

theorem hostWrite_staleCache (width addr : Nat) (v : Word) :
    SameNextButStaleCache (hostWrite width addr v s) (hostWrite width addr v (s.withCache words)) := by
  have ha' := withCache_accessOffset s words width addr
  cases ha : s.accessOffset width addr with
  | error why =>
    rw [hostWrite_error ha, hostWrite_error (ha'.trans ha)]
    exact sameNext_refl _
  | ok o =>
    cases hr : regAt o with
    | none =>
      rw [hostWrite_reserved ha hr, hostWrite_reserved (ha'.trans ha) hr]
      exact sameNext_withCache s hv words
    | some r =>
      rw [hostWrite_reg ha hr, hostWrite_reg (ha'.trans ha) hr, writeRegister_withCache]
      exact sameNext_withCache _ (writeRegister_cacheValid hv r v) words

theorem dagWrite_staleCache (addr : DWord) (byte : Byte) :
    SameNextButStaleCache (dagWrite addr byte s) (dagWrite addr byte (s.withCache words)) := by
  rw [dagWrite, dagWrite, withCache_readingDag]
  split
  · exact sameNext_refl _
  · exact sameNext_withCache { s with dag := s.dag.write addr.toNat byte } hv words

/-! ### One step -/

theorem act_staleCache (hw : s.wf) (e : Event) :
    SameNextButStaleCache (act e s) (act e (s.withCache words)) := by
  cases e with
  | engine choice => exact engineStep_staleCache hv words hw (some choice)
  | hostRead width addr => exact hostRead_staleCache hv words width addr
  | hostWrite width addr v => exact hostWrite_staleCache hv words width addr v
  | dagWrite addr byte => exact dagWrite_staleCache hv words addr byte
  | reset => exact sameNext_refl _

theorem step_staleCache (hw : s.wf) : SameNextButStaleCache (step s) (step (s.withCache words)) := by
  have hi := withCache_inputs s words
  cases hs : s.inputs with
  | nil =>
    rw [step_of_nil hs, step_of_nil (hi.trans hs)]
    exact engineStep_staleCache hv words hw none
  | cons e rest =>
    rw [step_of_cons hs, step_of_cons (hi.trans hs)]
    exact act_staleCache (s := s.popInput rest) hv words hw e

end

/-- Settles O53: `step_staleCache`, event by event and command by command. -/
theorem staleCacheIsNeverUsed : Obligations.StaleCacheIsNeverUsed :=
  fun _ t words hw hv h => step_staleCache hv words hw t h

end Sys2Proof.Machine
end

section
/-! PROOFS. The register map and the layout of STATUS and PARAM (10_state.md R22, R24, R26, R52; 20_memory.md
R61; 60_exceptions.md R271). -/

namespace Sys2Proof.Machine

/-! ### The register map -/

theorem index_of_offset (base i : Nat) : (base + 4 * i - base) / 4 = i := by omega

/-- The register at a register's offset is that register (10_state.md R22). -/
theorem regAt_offset (r : Reg) : regAt r.offset = some r := by
  cases r with
  | lm l r =>
    have hl : (0x800 + 128 * l.val + 4 * r.val - 0x800) / 128 = l.val := by omega
    have hr : (0x800 + 128 * l.val + 4 * r.val - 0x800) % 128 / 4 = r.val := by omega
    simp (disch := omega) only [regAt, Reg.offset, if_neg, dif_neg, dif_pos, hl, hr]
  | header i | target i | rhash i | rmix i | ks i | skw i | fm i | dg i | mx i | cache i =>
    simp (disch := omega) only [regAt, Reg.offset, if_neg, dif_neg, dif_pos, index_of_offset]
  | _ => rfl

/-- The registers of the aperture's first 0x70 bytes stand at their numbers' offsets (10_state.md R22). -/
theorem scalarAt_offset : ∀ n < 28, (scalarAt n).map Reg.offset = some (4 * n) := by decide

/-- A register's offset is the one it is found at (10_state.md R22). -/
theorem offset_of_regAt {o : Nat} {r : Reg} (h : regAt o = some r) : r.offset = o := by
  simp only [regAt, ite_eq_iff, dite_eq_iff] at h
  obtain ⟨-, h⟩ | ⟨h4, ⟨hs, h⟩ | ⟨-, h⟩⟩ := h
  · cases h
  · have hn := scalarAt_offset (o / 4) (by omega)
    rw [h, Option.map_some, Option.some.injEq] at hn
    omega
  · -- the eleven arrays of registers, then the reserved offsets
    iterate 11 rcases h with ⟨hrange, h⟩ | ⟨-, h⟩; rotate_left
    all_goals cases h <;> simp only [Reg.offset] <;> omega

/-- An offset of no register is a reserved one (10_state.md R52). -/
theorem regAt_reserved {o : Nat} (h : ∀ r : Reg, r.offset ≠ o) : regAt o = none := by
  cases hr : regAt o with
  | none => rfl
  | some r => exact absurd (offset_of_regAt hr) (h r)

theorem accessOffset_aligned (s : State) {o : Nat} (h4 : o % 4 = 0) (ho : o < 0x5000) :
    s.accessOffset 4 (s.params.apBase + o) = .ok o := by
  unfold State.accessOffset
  rw [if_neg (by decide), if_neg (by simp only [apertureBytes]; omega), if_neg (by omega),
    Nat.add_sub_cancel_left]

/-- An access of another width or alignment is refused (20_memory.md R61; log 15). -/
theorem accessOffset_refused (s : State) {width addr : Nat}
    (h : width ≠ 4 ∨ s.params.apBase ≤ addr ∧ (addr - s.params.apBase) % 4 ≠ 0) :
    ∃ why, s.accessOffset width addr = .error why := by
  unfold State.accessOffset
  split_ifs with hw ha h4
  · exact ⟨_, rfl⟩
  · exact ⟨_, rfl⟩
  · exact ⟨_, rfl⟩
  · omega

/-! ### Steps that are host accesses -/

section
variable {s : State} {r : Reg} {v : Word} {rest : List Event}

theorem step_hostRead_reg
    (h : s.inputs = .hostRead 4 (s.params.apBase + r.offset) :: rest) :
    step s = .next ((s.popInput rest).readRegister r) := by
  rw [step_of_cons h]
  exact hostRead_reg (accessOffset_reg (s.popInput rest) r) (regAt_offset r)

theorem step_hostWrite_reg
    (h : s.inputs = .hostWrite 4 (s.params.apBase + r.offset) v :: rest) :
    step s = .next ((s.popInput rest).writeRegister r v) := by
  rw [step_of_cons h]
  exact hostWrite_reg (accessOffset_reg (s.popInput rest) r) (regAt_offset r)

end

/-- Settles O54: `regAt_offset`, `offset_of_regAt`, and what an access answers at a reserved offset and
where it is refused. -/
theorem registerMapRoundTrip : Obligations.RegisterMapRoundTrip := by
  refine ⟨regAt_offset, fun _ _ => offset_of_regAt, offset_bounds, ?_, ?_⟩
  · intro s o v rest h4 ho hres
    refine ⟨fun h => ?_, fun _ h => ?_⟩ <;> rw [step_of_cons h]
    · exact hostRead_reserved (accessOffset_aligned (s.popInput rest) h4 ho) (regAt_reserved hres)
    · exact hostWrite_reserved (accessOffset_aligned (s.popInput rest) h4 ho) (regAt_reserved hres)
  · intro s width addr v rest hbad h
    obtain ⟨why, ha⟩ := accessOffset_refused (s.popInput rest) hbad
    rcases h with h | h <;> rw [step_of_cons h]
    · exact ⟨why, hostRead_error ha⟩
    · exact ⟨why, hostWrite_error ha⟩

/-! ### STATUS and PARAM -/

/-- The outcome codes' numbers determine any numbering that has R271's values. -/
theorem number_eq_bits {number : Code → Nat} (h₀ : number .none = 0) (h₁ : number .illegal = 1)
    (h₂ : number .arg = 2) (h₃ : number .busy = 3) (h₄ : number .config = 4)
    (h₅ : number .noCache = 5) (h₆ : number .mem = 6) (h₇ : number .aborted = 7) (e : Code) :
    number e = e.bits.toNat := by
  cases e <;> assumption

/-- An appended field reads as a number above the low one. -/
theorem append_toNat {m n : Nat} (x : BitVec m) (y : BitVec n) :
    (x ++ y).toNat = x.toNat * 2 ^ n + y.toNat := by
  rw [BitVec.toNat_append, ← Nat.shiftLeft_add_eq_or_of_lt y.isLt, Nat.shiftLeft_eq]

/-- STATUS as a number (10_state.md R26). -/
theorem statusWord_toNat (s : State) :
    s.statusWord.toNat = s.busy.toNat + 2 * s.done.toNat + 4 * s.found.toNat +
      8 * s.cacheValid.toNat + 256 * s.err.bits.toNat + 4096 * s.sticky.bits.toNat := by
  simp only [State.statusWord, append_toNat, BitVec.toNat_ofBool, BitVec.toNat_ofNat]
  omega

theorem busy_toNat (s : State) : s.busy.toNat = if s.engine = .idle then 0 else 1 := by
  cases he : s.engine <;> simp [State.busy, he, Engine.busy]

/-- PARAM as a number (10_state.md R24). -/
theorem paramWord_toNat (p : Params) :
    (paramWord p).toNat =
      (if p.rcTable = .std then 1 else 0) + (if p.kissCombine = .add then 2 else 0) := by
  simp only [paramWord, rcSel, kSel]
  cases p.rcTable <;> cases p.kissCombine <;> decide

/-- Settles O55, by the numbers of STATUS's and PARAM's words. -/
theorem statusAndParamLayout : Obligations.StatusAndParamLayout := by
  intro s number h₀ h₁ h₂ h₃ h₄ h₅ h₆ h₇
  have hn := number_eq_bits h₀ h₁ h₂ h₃ h₄ h₅ h₆ h₇
  refine ⟨?_, paramWord_toNat s.params⟩
  rw [hn, hn, ← busy_toNat]
  exact statusWord_toNat s

end Sys2Proof.Machine
end

section
/-! PROOFS. Host accesses to the registers: reads, writes while idle, writes while a command runs, and CTRL
(10_state.md R25, R27, R51 to R54; 60_exceptions.md R273, R278 to R280). -/

namespace Sys2Proof.Machine

/-! ### Host reads -/

/-- A read that draws no free value answers the register's value (10_state.md R51). -/
theorem readRegister_exact {s : State} {r : Reg} (h : s.readsDraw r = false) :
    s.readRegister r = { s with rdata := s.readReg r } := by
  simp [State.readRegister, h]

theorem step_hostRead_exact {s : State} {r : Reg} {rest : List Event}
    (h : s.inputs = .hostRead 4 (s.params.apBase + r.offset) :: rest)
    (hd : s.readsDraw r = false) :
    step s = .next { s with inputs := rest, rdata := s.readReg r } := by
  rw [step_hostRead_reg h, readRegister_exact (s := s.popInput rest) hd]
  rfl

/-- Where a read is exact: outside the running command's write set or in the result slot, and not in a
stale CACHE (10_state.md R49, R54). -/
theorem readsDraw_false {s : State} {r : Reg}
    (hw : ∀ i, s.running = some i → writeSet i r = false ∨ r.isResult = true)
    (hc : r.isCache = true → s.cacheValid = true) : s.readsDraw r = false := by
  have hcache : (r.isCache && !s.cacheValid) = false := by
    cases h : r.isCache with
    | false => rfl
    | true => simp [hc h]
  have hset : (s.inWriteSet r && !r.isResult) = false := by
    cases hr : s.running with
    | none => simp [State.inWriteSet, hr]
    | some i => rcases hw i hr with h | h <;> simp [State.inWriteSet, hr, h]
  rw [State.readsDraw, hcache, hset, Bool.or_false]

/-- Settles O58: such a read draws no free value (`readsDraw_false`). -/
theorem readIsExactOutsideWriteSet : Obligations.ReadIsExactOutsideWriteSet := by
  intro s r rest hw hc h
  exact step_hostRead_exact h (readsDraw_false hw hc)

/-! ### Host writes while a command runs -/

theorem writeRegister_busy {s : State} {r : Reg} (he : s.engine ≠ .idle) (hr : r ≠ .ctrl)
    (v : Word) : s.writeRegister r v = s.noteBusy := by
  rcases writeRegister_cases s r v with ⟨h, -⟩ | ⟨-, -, h⟩ | ⟨-, h, -⟩ | ⟨-, -, h, -⟩
  · exact absurd h hr
  · exact h
  · exact absurd h he
  · exact absurd h he

/-- Settles O57: the write is only noted (`writeRegister_busy`). -/
theorem busyWriteIsIgnored : Obligations.BusyWriteIsIgnored := by
  intro s r v rest he hr h
  rw [step_hostWrite_reg h, writeRegister_busy (s := s.popInput rest) he hr, State.noteBusy, record_eq]
  rfl

/-! ### CTRL -/

/-- ABORT has no effect while no SEARCH runs (60_exceptions.md R278). -/
theorem abort_of_not_search {s : State} (h : s.running ≠ some .search) : s.abort = s := by
  cases he : s.engine with
  | idle => simp only [State.abort, he]
  | accepted a => simp only [State.abort, he, if_neg h]
  | searching r => exact absurd (by rw [State.running, he]) h

theorem abort_of_searching {s : State} {r : Search} (h : s.engine = .searching r) :
    s.abort.engine = .searching { r with abortReq := true } := by
  simp only [State.abort, h]

/-- An ABORT between a SEARCH's acceptance and its start is noted (log 9). -/
theorem abort_of_accepted {s : State} {a : Bool} (h : s.engine = .accepted a)
    (hr : s.running = some .search) : s.abort.engine = .accepted true := by
  simp only [State.abort, h, if_pos hr]

/-- A host write to CTRL, at any time (10_state.md R25). -/
theorem step_ctrlWrite {s : State} {v : Word} {rest : List Event}
    (h : s.inputs = .hostWrite 4 (s.params.apBase + 0x8) v :: rest) :
    step s = .next ((s.popInput rest).ctrlWrite v) := by
  rw [step_hostWrite_reg (r := .ctrl) h, State.writeRegister, if_pos rfl]

/-- Settles O59, by what ABORT does in each of the engine's phases. -/
theorem ctrlWriteActs : Obligations.CtrlWriteActs := by
  refine ⟨fun _ => rfl, fun s v rest h => ?_⟩
  rw [step_ctrlWrite h, ctrlWrite_eq]
  refine ⟨fun hr => ?_, fun r he => ?_, fun a he hr => ?_⟩
  · rw [abort_of_not_search (s := s.popInput rest) hr, ite_self]
    rfl
  · rw [abort_of_searching (s := s.popInput rest) he]
    cases v.getLsbD 0 <;> simp [State.popInput, he]
  · rw [abort_of_accepted (s := s.popInput rest) he hr]
    cases v.getLsbD 0 <;> simp [State.popInput, he]

/-! ### Host writes while idle -/

section
variable {s : State} (he : s.engine = .idle)
include he

/-- While idle no command runs, so a read draws only from a stale CACHE. -/
theorem readsDraw_idle (r : Reg) (hc : r.isCache = false) : s.readsDraw r = false :=
  readsDraw_false (fun i h => by rw [State.running, he] at h; cases h)
    fun h => by rw [hc] at h; cases h

/-- A write of CMD while idle is the acceptance event (60_exceptions.md R273). -/
theorem writeRegister_idle_cmd (v : Word) : s.writeRegister .cmd v = s.accept v := by
  simp [State.writeRegister, State.busy, he, Engine.busy]

theorem writeRegister_idle {r : Reg} (hctrl : r ≠ .ctrl) (hcmd : r ≠ .cmd) (v : Word) :
    s.writeRegister r v = s.writeReg r v := by
  simp [State.writeRegister, State.busy, he, Engine.busy, hctrl, hcmd]

end

/-- A read-only register ignores a write (10_state.md R22). -/
theorem writeReg_readOnly (s : State) {r : Reg}
    (h : r = .id ∨ r = .param ∨ r = .status ∨ r.isCache = true) (v : Word) :
    s.writeReg r v = s := by
  rcases h with rfl | rfl | rfl | h
  · rfl
  · rfl
  · rfl
  · cases r with
    | cache j => rfl
    | _ => cases h

/-- A written register reads the value written (10_state.md R51). -/
theorem readReg_writeReg_self (s : State) {r : Reg} (hw : r.writable = true) (hcmd : r ≠ .cmd)
    (v : Word) : (s.writeReg r v).readReg r = v := by
  cases r with
  | id | param | ctrl | status | cache _ => cases hw
  | cmd => exact absurd rfl hcmd
  | header i | target i | rhash i | rmix i | ks i | skw i | fm i | dg i | mx i | lm i j =>
    simp [State.writeReg, State.readReg]
  | _ => rfl

/-- Replacing an array's element leaves the others. -/
theorem getElem_set_of_ne {α : Type} {n : Nat} (x : Vector α n) {i j : Fin n} (h : j ≠ i) (v : α) :
    (x.set i v)[j] = x[j] :=
  Vector.getElem_set_ne _ _ fun hij => h (Fin.ext hij.symm)

/-- A write leaves every other register as it was, but for STATUS's CACHE_VALID (10_state.md R51). -/
theorem readReg_writeReg_of_ne (s : State) {r r' : Reg} (hne : r' ≠ r) (hst : r' ≠ .status)
    (v : Word) : (s.writeReg r v).readReg r' = s.readReg r' := by
  cases r with
  | lm l i =>
    cases r' with
    | lm l' i' =>
      by_cases hl : l' = l
      · subst hl
        have hi : i' ≠ i := fun hi => hne (by rw [hi])
        simp [State.writeReg, State.readReg, getElem_set_of_ne _ hi]
      · exact congrArg (·[i']) (getElem_set_of_ne s.ctx.lm hl _)
    | _ => trivial
  | header i | target i | rhash i | rmix i | ks i | skw i | fm i | dg i | mx i =>
    -- a register outside the array is in a field not written; one of the array is another element
    cases r' <;> first | trivial | exact getElem_set_of_ne _ (fun h => hne (by rw [h])) v
  | _ =>
    -- `r'` is in a field not written, or it is `r`, against `hne`
    cases r' <;> trivial

/-- STATUS's stored fields after a write: CACHE_VALID alone may change (10_state.md R34, R35). -/
theorem writeReg_status (s : State) (r : Reg) (v : Word) :
    (s.writeReg r v).done = s.done ∧ (s.writeReg r v).found = s.found ∧
      (s.writeReg r v).err = s.err ∧ (s.writeReg r v).sticky = s.sticky := by
  cases r <;> exact ⟨rfl, rfl, rfl, rfl⟩

/-! ### A RW register written while idle -/

theorem writable_ne_ctrl {r : Reg} (h : r.writable = true) : r ≠ .ctrl := by
  rintro rfl
  cases h

theorem writable_not_cache {r : Reg} (h : r.writable = true) : r.isCache = false := by
  cases r with
  | cache j => cases h
  | _ => rfl

theorem readReg_accept_of_ne (s : State) {r : Reg} (hne : r ≠ .cmd) (hst : r ≠ .status) (v : Word) :
    (s.accept v).readReg r = s.readReg r := by
  cases r <;> trivial

/-- Acceptance of CMD, or a data register's write: what a write of a RW register while idle is. -/
theorem writeRegister_idle_cases {s : State} {r : Reg} (he : s.engine = .idle)
    (hw : r.writable = true) (v : Word) :
    r = .cmd ∧ s.writeRegister r v = s.accept v ∨
      r ≠ .cmd ∧ s.writeRegister r v = s.writeReg r v := by
  by_cases hcmd : r = .cmd
  · subst hcmd
    exact .inl ⟨rfl, writeRegister_idle_cmd he v⟩
  · exact .inr ⟨hcmd, writeRegister_idle he (writable_ne_ctrl hw) hcmd v⟩

section
variable {s : State} {r : Reg} (he : s.engine = .idle) (hw : r.writable = true) (v : Word)
include he hw

theorem idleWrite_readReg_self : (s.writeRegister r v).readReg r = v := by
  rcases writeRegister_idle_cases he hw v with ⟨rfl, h⟩ | ⟨hcmd, h⟩ <;> rw [h]
  · rfl
  · exact readReg_writeReg_self s hw hcmd v

theorem idleWrite_readReg_of_ne {r' : Reg} (hne : r' ≠ r) (hst : r' ≠ .status) :
    (s.writeRegister r v).readReg r' = s.readReg r' := by
  rcases writeRegister_idle_cases he hw v with ⟨rfl, h⟩ | ⟨-, h⟩ <;> rw [h]
  · exact readReg_accept_of_ne s hne hst v
  · exact readReg_writeReg_of_ne s hne hst v

theorem idleWrite_inputs : (s.writeRegister r v).inputs = s.inputs := by
  rcases writeRegister_idle_cases he hw v with ⟨-, h⟩ | ⟨-, h⟩ <;> rw [h]
  · rfl
  · cases r <;> rfl

/-- The written register reads exactly next: CMD is in no command's write set, and a data register's write
leaves the engine idle (10_state.md R54). -/
theorem idleWrite_readsDraw : (s.writeRegister r v).readsDraw r = false := by
  rcases writeRegister_idle_cases he hw v with ⟨rfl, h⟩ | ⟨-, h⟩ <;> rw [h]
  · exact readsDraw_false (fun _ _ => .inl rfl) fun hc => by cases hc
  · obtain ⟨-, -, hengine⟩ := writeReg_frame s r v
    exact readsDraw_idle (hengine.trans he) r (writable_not_cache hw)

/-- STATUS after a data register's write (10_state.md R34, R35). -/
theorem idleWrite_status (hcmd : r ≠ .cmd) :
    (s.writeRegister r v).engine = .idle ∧ (s.writeRegister r v).done = s.done ∧
      (s.writeRegister r v).found = s.found ∧ (s.writeRegister r v).err = s.err ∧
      (s.writeRegister r v).sticky = s.sticky ∧
      (s.writeRegister r v).cacheValid = (s.cacheValid && !r.isDagConfig) := by
  rw [writeRegister_idle he (writable_ne_ctrl hw) hcmd]
  obtain ⟨-, -, hengine⟩ := writeReg_frame s r v
  obtain ⟨hdone, hfound, herr, hsticky⟩ := writeReg_status s r v
  exact ⟨hengine.trans he, hdone, hfound, herr, hsticky, writeReg_cacheValid s r v⟩

end

/-- Settles O56: a write of CMD by `writeRegister_idle_cmd`, of a read-only register by `writeReg_readOnly`,
and of a RW register by the `idleWrite` rules. -/
theorem idleWriteIsReadBack : Obligations.IdleWriteIsReadBack := by
  refine ⟨fun s v rest he h => ?_, fun s r v rest he hr h => ?_, fun s r v rest he hw a ha h => ?_⟩
  · rw [step_hostWrite_reg h, writeRegister_idle_cmd (s := s.popInput rest) he]
    rfl
  · have hctrl : r ≠ .ctrl := by rintro rfl; simp [Reg.isCache] at hr
    have hcmd : r ≠ .cmd := by rintro rfl; simp [Reg.isCache] at hr
    rw [step_hostWrite_reg h, writeRegister_idle (s := s.popInput rest) he hctrl hcmd,
      writeReg_readOnly _ hr]
    rfl
  · subst ha
    have he' : (s.popInput (.hostRead 4 (s.params.apBase + r.offset) :: rest)).engine = .idle := he
    obtain ⟨hparams, hdag⟩ := writeRegister_sameEnv (s.popInput _) r v
    have hread := step_hostRead_exact (rest := rest)
      ((idleWrite_inputs he' hw v).trans (by rw [hparams]; rfl)) (idleWrite_readsDraw he' hw v)
    rw [idleWrite_readReg_self he' hw v] at hread
    exact ⟨_, _, step_hostWrite_reg h, hread, rfl, rfl,
      fun _ hne hst => idleWrite_readReg_of_ne he' hw v hne hst,
      fun hcmd => idleWrite_status he' hw v hcmd, hdag, hparams⟩

end Sys2Proof.Machine
end

section
/-! PROOFS. DAGMEM is the platform's: the block and the host only read it, and another agent's write changes
one byte (20_memory.md R64, R65; 10_state.md R24). -/

namespace Sys2Proof.Machine

/-- Another agent's write that has a move leaves the one byte written and nothing else changed
(70_reset_and_hazards.md R309). -/
theorem dagWrite_next {a : DWord} {b : Byte} {s t : State} (h : dagWrite a b s = .next t) :
    s.readingDag = false ∧ t = { s with dag := s.dag.write a.toNat b } := by
  rw [dagWrite] at h
  split at h
  · cases h
  · rename_i hr
    cases h
    exact ⟨Bool.eq_false_iff.2 hr, rfl⟩

/-- A step whose event is another agent's write is that write. -/
theorem step_dagWrite_dag {s t : State} {a : DWord} {b : Byte} {rest : List Event}
    (hi : s.inputs = .dagWrite a b :: rest) (h : step s = .next t) :
    t.dag = s.dag.write a.toNat b := by
  rw [step_of_cons hi] at h
  obtain ⟨-, rfl⟩ := dagWrite_next h
  rfl

theorem step_params {s t : State} (h : step s = .next t) : t.params = s.params := by
  rcases step_sameEnv h with ⟨hp, -⟩ | ⟨-, -, -, -, hp, -⟩ <;> exact hp

/-- Only another agent's write changes DAGMEM (20_memory.md R64). -/
theorem step_dag_of_not_dagWrite {s t : State} (hne : ∀ a b rest, s.inputs ≠ .dagWrite a b :: rest)
    (h : step s = .next t) : t.dag = s.dag := by
  rcases step_sameEnv h with ⟨-, hd⟩ | ⟨a, b, rest, hi, -, -⟩
  · exact hd
  · exact absurd hi (hne a b rest)

/-- Settles O52: the parameters and the other events by `step_sameEnv`, the written byte by
`step_dagWrite_dag` and read after write in DAGMEM's canonical form (`Memory.read_write`). -/
theorem blockNeverWritesDag : Obligations.BlockNeverWritesDag := by
  refine fun s t h => ⟨step_params h, fun hne => step_dag_of_not_dagWrite hne h,
    fun a b rest hw hi x => ?_⟩
  obtain ⟨hdag, -⟩ := hw
  rw [step_dagWrite_dag hi h, Memory.read_write hdag]

end Sys2Proof.Machine
end

section
/-! PROOFS. The decoder and the encoder (30_encoding.md R90 to R99): which words decode to a command, and the
encoder's word for each command is one of them. -/

namespace Sys2Proof.Machine

/-! ### Which words decode to a command -/

/-- The opcode map answers the one command of the OP, and the command's own fields alone must agree
(30_encoding.md R92, R97). -/
theorem decodeOp_eq_ok_iff {op : BitVec 8} {rnd : BitVec 5} {arg : BitVec 16} {i : Instr} :
    decodeOp op rnd arg = .ok i ↔
      op = i.op ∧ (usesRnd i = true → rnd = i.rnd) ∧ (usesArg i = true → arg = i.arg) := by
  constructor
  · intro h
    unfold decodeOp at h
    split at h
    case h_31 => cases h
    all_goals
      rename_i hop
      cases h
      exact ⟨BitVec.eq_of_toNat_eq hop, by simp [usesRnd, Instr.rnd], by simp [usesArg, Instr.arg]⟩
  · rintro ⟨rfl, hrnd, harg⟩
    cases i with
    | keccakRound r => rw [hrnd rfl]; rfl
    | loopSeed a | dagMix a | loopIter a => rw [harg rfl]; rfl
    | _ => rfl

/-- A word of another RSV is illegal, whatever its OP (30_encoding.md R96). -/
theorem decode_of_rsv_ne {w : Word} (h : rsvField w ≠ 0) :
    decode w = .error (.reservedBits (rsvField w)) :=
  if_neg h

/-- A word stands for a command when RSV is 000, OP is the command's, and the fields the command uses are
its own (30_encoding.md R91, R92, R96, R97). -/
theorem decode_eq_ok_iff {w : Word} {i : Instr} :
    decode w = .ok i ↔ rsvField w = 0 ∧ opField w = i.op ∧
      (usesRnd i = true → rndField w = i.rnd) ∧ (usesArg i = true → argField w = i.arg) := by
  by_cases hrsv : rsvField w = 0
  · simp only [decode_of_rsv hrsv, decodeOp_eq_ok_iff, hrsv, true_and]
  · simp only [decode_of_rsv_ne hrsv, hrsv, false_and, reduceCtorEq]

/-! ### Legal words -/

/-- Every command has a row in the opcode map (30_encoding.md R92). -/
theorem op_mem_assignedOps (i : Instr) : i.op.toNat ∈ assignedOps := by
  cases i <;> simp [assignedOps, Instr.op]

/-- The opcode map has a command for every assigned OP, whatever the other fields are (30_encoding.md R92). -/
theorem exists_decodeOp_of_mem {op : BitVec 8} (rnd : BitVec 5) (arg : BitVec 16)
    (h : op.toNat ∈ assignedOps) : ∃ i, decodeOp op rnd arg = .ok i := by
  unfold decodeOp
  split
  case h_31 => simp_all [assignedOps]
  all_goals exact ⟨_, rfl⟩

theorem legalWord_iff {w : Word} :
    legalWord w = true ↔ rsvField w = 0 ∧ (opField w).toNat ∈ assignedOps := by
  simp [legalWord, rsvClear, opAssigned, ← BitVec.toNat_inj, rsvField_toNat, opField_toNat]

/-- Words that agree under the opcode map's mask have the same OP and RSV (30_encoding.md R91, R92). -/
theorem fields_eq_of_masked_eq {w w' : Word} (h : w &&& 0x0000E0FF = w' &&& 0x0000E0FF) :
    opField w' = opField w ∧ rsvField w' = rsvField w := by
  rw [← opField_masked w', ← rsvField_masked w', ← h, opField_masked, rsvField_masked]
  exact ⟨rfl, rfl⟩

/-! ### The obligations -/

/-- Settles O44: the encoder's word has RSV 000 and the command's OP, RND and ARG, which
`decode_eq_ok_iff` asks for. -/
theorem decodeOfEncode : Obligations.DecodeOfEncode := fun i =>
  decode_eq_ok_iff.2 ⟨rsvField_encode i, opField_encode i, fun _ => rndField_encode i,
    fun _ => argField_encode i⟩

/-- Settles O45: a command's OP is assigned, and an assigned OP has a command. -/
theorem decodesExactlyLegalWords : Obligations.DecodesExactlyLegalWords := by
  intro w
  rw [legalWord_iff]
  constructor
  · rintro ⟨i, h⟩
    obtain ⟨hrsv, hop, -⟩ := decode_eq_ok_iff.1 h
    exact ⟨hrsv, hop ▸ op_mem_assignedOps i⟩
  · rintro ⟨hrsv, hop⟩
    rw [decode_of_rsv hrsv]
    exact exists_decodeOp_of_mem _ _ hop

/-- Settles O46: words equal under the mask share OP and RSV (`fields_eq_of_masked_eq`), and of RND and ARG
only a field the command uses counts (`decode_eq_ok_iff`). -/
theorem ignoredFieldsDoNotMatter : Obligations.IgnoredFieldsDoNotMatter := by
  intro w w' i h hmask hrnd harg
  obtain ⟨hrsv, hop, hrndOwn, hargOwn⟩ := decode_eq_ok_iff.1 h
  obtain ⟨hopSame, hrsvSame⟩ := fields_eq_of_masked_eq hmask
  exact decode_eq_ok_iff.2 ⟨hrsvSame.trans hrsv, hopSame.trans hop,
    fun hu => (hrnd hu).symm.trans (hrndOwn hu), fun hu => (harg hu).symm.trans (hargOwn hu)⟩

/-- Settles O47: a closed fact about ten words, by evaluating the decoder. -/
theorem sampleWordsDecode : Obligations.SampleWordsDecode := by
  unfold Obligations.SampleWordsDecode
  decide

end Sys2Proof.Machine
end

section
/-! PROOFS. The primitive commands (40_primitives.md R110 to R123): each command's OP, the word it leaves in RES
as the rule describes it, and that RES and STATUS are all it writes. -/

namespace Sys2Proof.Machine

/-! ### Opcodes -/

/-- A command that uses neither RND nor ARG is selected by its OP under RSV 000 (30_encoding.md R92, R97). -/
theorem selects_of_fields {op : Word} {i : Instr} (hrsv : rsvField op = 0) (hop : opField op = i.op)
    (hrnd : usesRnd i = false) (harg : usesArg i = false) : Selects op i := by
  intro w hw
  obtain ⟨hopw, hrsvw⟩ := fields_of_masked hw
  exact decode_eq_ok_iff.2 ⟨hrsvw.trans hrsv, hopw.trans hop, by simp [hrnd], by simp [harg]⟩

/-! ### Rotations -/

/-- The rotation amount counts modulo 32 only, so masking it with 31 changes nothing (R114). -/
theorem rotl32_and_31 (x amount : Word) : rotl32 x (amount &&& 31).toNat = rotl32 x amount.toNat := by
  simp only [rotl32, and_31_toNat, Nat.mod_mod]

/-- The rotation amount counts modulo 32 only, so masking it with 31 changes nothing (R115). -/
theorem rotr32_and_31 (x amount : Word) : rotr32 x (amount &&& 31).toNat = rotr32 x amount.toNat := by
  simp only [rotr32, and_31_toNat, Nat.mod_mod]

/-- Rotating right is rotating left by what is left of the word (R115): both read the same bit of `x`. -/
theorem rotr32_eq_rotl32 (x : Word) (n : Nat) : rotr32 x n = rotl32 x ((32 - n % 32) % 32) := by
  apply BitVec.eq_of_getLsbD_eq
  intro i hi
  have hsource : (i + n % 32) % 32 = (i + 32 - (32 - n % 32) % 32 % 32) % 32 := by omega
  rw [rotr32_getLsbD x n hi, rotl32_getLsbD x _ hi, hsource]

/-! ### Counts of bits -/

/-- The indices below `n` from 0 up at which `p` holds, before the first at which it does not. -/
theorem takeWhile_range_spec (p : Nat → Bool) (n : Nat) :
    ((List.range n).takeWhile p).length ≤ n ∧
      (∀ i, i < ((List.range n).takeWhile p).length → p i = true) ∧
      (((List.range n).takeWhile p).length < n →
        p ((List.range n).takeWhile p).length = false) := by
  have hle : (List.range n).findIdx (fun i => !p i) ≤ n :=
    List.findIdx_le_length.trans_eq List.length_range
  have hfind : ((List.range n).takeWhile p).length = (List.range n).findIdx fun i => !p i := by
    simp [List.takeWhile_eq_take_findIdx_not, hle]
  rw [hfind]
  refine ⟨hle, fun i hi => ?_, fun hlt => ?_⟩
  · simpa using List.not_of_lt_findIdx hi
  · have hlen : (List.range n).findIdx (fun i => !p i) < (List.range n).length := by
      rwa [List.length_range]
    simpa using List.findIdx_getElem (w := hlen)

/-- `clz32` counts the zeros from bit 31 down (R116). -/
theorem clz32_isLeadingZeros (x : Word) : IsLeadingZeros x (clz32 x) := by
  obtain ⟨hle, hzero, hone⟩ := takeWhile_range_spec (fun i => !x.getLsbD (31 - i)) 32
  have hcount : (clz32 x).toNat =
      ((List.range 32).takeWhile fun i => !x.getLsbD (31 - i)).length :=
    (BitVec.toNat_ofNat _ _).trans (Nat.mod_eq_of_lt (by omega))
  rw [IsLeadingZeros, hcount]
  exact ⟨hle, fun i hi => by simpa using hzero i hi, fun hlt => by simpa using hone hlt⟩

/-- 0 has 32 leading zeros, and no word has more (R116). -/
theorem eq_32_of_isLeadingZeros_zero {v : Word} (h : IsLeadingZeros 0 v) : v = 32 := by
  obtain ⟨hle, -, hone⟩ := h
  have hge : ¬ v.toNat < 32 := fun hlt => by simpa using hone hlt
  exact BitVec.eq_of_toNat_eq (Nat.le_antisymm hle (Nat.not_lt.1 hge))

/-- `popcount32` counts the 1 bits (R117). -/
theorem popcount32_isPopulation (x : Word) : IsPopulation x (popcount32 x) := by
  have hle : (List.range 32).countP (fun i => x.getLsbD i) ≤ 32 := by
    simpa using List.countP_le_length (p := fun i => x.getLsbD i) (l := List.range 32)
  have hcount : (popcount32 x).toNat = Nat.count (fun i => x.getLsbD i = true) 32 := by
    rw [popcount32, BitVec.toNat_ofNat, Nat.mod_eq_of_lt (by omega)]
    simp [Nat.count]
  rw [IsPopulation, hcount, Nat.count_eq_card_filter_range, Finset.card_filter, Finset.card_filter,
    Finset.sum_range]

/-! ### Arithmetic -/

/-- Subtraction as a number, with the borrow added first (R119). -/
theorem sub_toNat (a b : Word) : (a - b).toNat = (2 ^ 32 + a.toNat - b.toNat) % 2 ^ 32 := by
  have := b.isLt
  rw [BitVec.toNat_sub]
  congr 1
  omega

/-! ### What each command leaves -/

/-- ROTL, the mask on the amount gone (R114). -/
theorem exec_rotl (s : State) : exec .rotl s = finishRes (rotl32 s.opa s.opb.toNat) s := by
  rw [← rotl32_and_31]
  rfl

/-- ROTR, the mask on the amount gone (R115). -/
theorem exec_rotr (s : State) : exec .rotr s = finishRes (rotr32 s.opa s.opb.toNat) s := by
  rw [← rotr32_and_31]
  rfl

/-! ### The obligations -/

/-- Settles O1: NOP is a completion with E_NONE, and recording E_NONE keeps STICKY. -/
theorem nopChangesOnlyStatus : Obligations.NopChangesOnlyStatus :=
  ⟨selects_of_fields rfl rfl rfl rfl, fun s => congrArg Host.Outcome.next (complete_none_eq s)⟩

/-- Settles O2: RES is `fnv1a` of the operands, as a number by `fnv1a_toNat`. -/
theorem fnv1aMultipliesXorByPrime : Obligations.Fnv1aMultipliesXorByPrime :=
  ⟨selects_of_fields rfl rfl rfl rfl, fun s =>
    ⟨fnv1a s.opa s.opb, fnv1a_toNat s.opa s.opb, finishRes_eq _ s⟩⟩

/-- Settles O3: the formula is `rotl32`'s own, its bits are `rotl32_getLsbD`. -/
theorem rotlMovesBitsUp : Obligations.RotlMovesBitsUp :=
  ⟨selects_of_fields rfl rfl rfl rfl, fun s =>
    ⟨rotl32 s.opa s.opb.toNat, rfl, fun _ hi => rotl32_getLsbD s.opa s.opb.toNat hi,
      (exec_rotl s).trans (finishRes_eq _ s)⟩⟩

/-- Settles O4: the formula is `rotr32`'s own, its bits are `rotr32_getLsbD`, and bit by bit it is a left
rotation (`rotr32_eq_rotl32`). -/
theorem rotrMovesBitsDown : Obligations.RotrMovesBitsDown :=
  ⟨selects_of_fields rfl rfl rfl rfl, fun s =>
    ⟨rotr32 s.opa s.opb.toNat, rfl, fun _ hi => rotr32_getLsbD s.opa s.opb.toNat hi,
      rotr32_eq_rotl32 s.opa s.opb.toNat, (exec_rotr s).trans (finishRes_eq _ s)⟩⟩

/-- Settles O5: `clz32` stops at the first 1, and for 0 there is none. -/
theorem clzCountsLeadingZeros : Obligations.ClzCountsLeadingZeros := by
  refine ⟨selects_of_fields rfl rfl rfl rfl, fun s => ⟨clz32 s.opa, ?_, ?_, finishRes_eq _ s⟩⟩
  · exact clz32_isLeadingZeros s.opa
  · intro hzero
    exact eq_32_of_isLeadingZeros_zero (hzero ▸ clz32_isLeadingZeros s.opa)

/-- Settles O6: the model's count over a list is the card of the set of 1 bits. -/
theorem popcCountsOnes : Obligations.PopcCountsOnes :=
  ⟨selects_of_fields rfl rfl rfl rfl, fun s =>
    ⟨popcount32 s.opa, popcount32_isPopulation s.opa, finishRes_eq _ s⟩⟩

/-- Settles O7: the quotient by 2^32 is a word already (`umulhi_toNat`), so the last reduction is idle. -/
theorem umulhiTakesHighHalf : Obligations.UmulhiTakesHighHalf := by
  refine ⟨selects_of_fields rfl rfl rfl rfl, fun s => ⟨umulhi s.opa s.opb, ?_, finishRes_eq _ s⟩⟩
  rw [← umulhi_toNat, Nat.mod_eq_of_lt (umulhi s.opa s.opb).isLt]

/-- Settles O8: selector by selector, the fact about the primitive that `randomMath` applies. -/
theorem rmathSelectsByOpcModNine : Obligations.RmathSelectsByOpcModNine := by
  refine ⟨selects_of_fields rfl rfl rfl rfl, fun s =>
    ⟨randomMath s.opa s.opb s.opc, ?_, finishRes_eq _ s⟩⟩
  rw [randomMath, rotl32_and_31, rotr32_and_31]
  generalize s.opc.toNat % 9 = selector
  match selector with
  | 0 => exact BitVec.toNat_add s.opa s.opb
  | 1 => exact sub_toNat s.opa s.opb
  | 2 => exact BitVec.toNat_mul s.opa s.opb
  | 3 => exact umulhi_toNat s.opa s.opb
  | 4 => exact fun _ _ => BitVec.getLsbD_xor
  | 5 => exact fun _ hi => rotl32_getLsbD s.opa s.opb.toNat hi
  | 6 => exact fun _ hi => rotr32_getLsbD s.opa s.opb.toNat hi
  | 7 => exact popcount32_isPopulation s.opa
  | _ + 8 => exact clz32_isLeadingZeros s.opa

/-- Settles O9: selector by selector, the fact about the word operation that `randomMerge` applies. -/
theorem rmergeSelectsByOpcModFive : Obligations.RmergeSelectsByOpcModFive := by
  refine ⟨selects_of_fields rfl rfl rfl rfl, fun s =>
    ⟨randomMerge s.opa s.opb s.opc, ?_, finishRes_eq _ s⟩⟩
  rw [randomMerge]
  generalize s.opc.toNat % 5 = selector
  match selector with
  | 0 => exact BitVec.toNat_add s.opa s.opb
  | 1 => exact BitVec.toNat_mul s.opa s.opb
  | 2 => exact fun _ _ => BitVec.getLsbD_and
  | 3 => exact fun _ _ => BitVec.getLsbD_or
  | _ + 4 => exact fun _ _ => BitVec.getLsbD_xor

end Sys2Proof.Machine
end

section
/-! PROOFS. The KISS99 commands (41_kiss99.md R140 to R145): the generator's step as numbers, its seeding as a
chain of FNV-1a, and what each command leaves. -/

namespace Sys2Proof.Machine

/-! ### The generator -/

/-- A multiply-with-carry update never wraps (R141): for a multiplier of at most 2^16,
`a * 65535 + 65535 < 2^32`. -/
theorem multiplyWithCarry_toNat {a : Word} (ha : a.toNat ≤ 2 ^ 16) (x : Word) :
    (a * (x &&& 0xFFFF#32) + (x >>> 16)).toNat = a.toNat * (x.toNat % 2 ^ 16) + x.toNat / 2 ^ 16 := by
  have hlow : (x &&& 0xFFFF#32).toNat = x.toNat % 2 ^ 16 :=
    (BitVec.toNat_and ..).trans (Nat.and_two_pow_sub_one_eq_mod x.toNat 16)
  have hprod : a.toNat * (x.toNat % 2 ^ 16) ≤ 2 ^ 16 * (2 ^ 16 - 1) := Nat.mul_le_mul ha (by omega)
  have hx := x.isLt
  rw [BitVec.toNat_add, BitVec.toNat_mul, hlow, BitVec.toNat_ushiftRight, Nat.shiftRight_eq_div_pow]
  omega

theorem Kiss.step_z_toNat (k : Kiss) :
    k.step.z.toNat = 36969 * (k.z.toNat % 2 ^ 16) + k.z.toNat / 2 ^ 16 :=
  multiplyWithCarry_toNat (a := 36969#32) (by decide) k.z

theorem Kiss.step_w_toNat (k : Kiss) :
    k.step.w.toNat = 18000 * (k.w.toNat % 2 ^ 16) + k.w.toNat / 2 ^ 16 :=
  multiplyWithCarry_toNat (a := 18000#32) (by decide) k.w

/-- The congruential word wraps modulo 2^32 (R141). -/
theorem Kiss.step_jcong_toNat (k : Kiss) :
    k.step.jcong.toNat = (69069 * k.jcong.toNat + 1234567) % 2 ^ 32 := by
  rw [Kiss.step, BitVec.toNat_add, BitVec.toNat_mul]
  exact Nat.mod_add_mod ..

theorem Kiss.output_xor (k : Kiss) : k.output .xor = ((k.z <<< 16) + k.w) ^^^ k.jcong ^^^ k.jsr := rfl

theorem Kiss.output_add (k : Kiss) : k.output .add = (((k.z <<< 16) + k.w) ^^^ k.jcong) + k.jsr := rfl

/-- The seed's halves are the SEED registers themselves (R142, R143). -/
theorem kissInit_seed (c : Ctx) (laneId : Word) :
    kissInit c.seed laneId =
      let z := fnv1a fnvOffsetBasis c.seedLo
      let w := fnv1a z c.seedHi
      let jsr := fnv1a w laneId
      ⟨z, w, jsr, fnv1a jsr (laneId + 1)⟩ := by
  rw [kissInit, Ctx.seed, lo32_pair, hi32_pair]

/-! ### What each command leaves -/

theorem exec_kissSeed (s : State) :
    exec .kissSeed s = .next { s with
      ctx.kiss := kissInit s.ctx.seed s.opa, engine := .idle, done := true, err := .none } :=
  finishCtx_eq _ s

theorem exec_kissNext (s : State) :
    exec .kissNext s = .next { s with
      res := s.ctx.kiss.step.output s.params.kissCombine, ctx.kiss := s.ctx.kiss.step,
      engine := .idle, done := true, err := .none } :=
  finishCtx_eq _ (s.setRes _)

/-! ### The obligations -/

/-- Settles O10: the four links of the chain are those of `kiss_init` on the SEED registers
(`kissInit_seed`). -/
theorem kissSeedChainsFnv : Obligations.KissSeedChainsFnv := by
  refine ⟨selects_of_fields rfl rfl rfl rfl, fun s => ⟨_, _, _, _, rfl, rfl, rfl, rfl, ?_⟩⟩
  rw [exec_kissSeed, kissInit_seed]
  rfl

/-- Settles O11: the words are those of `Kiss.step`, whose z and w do not wrap
(`multiplyWithCarry_toNat`), and RES is the output under the combine chosen. -/
theorem kissNextStepsGenerator : Obligations.KissNextStepsGenerator := by
  refine ⟨selects_of_fields rfl rfl rfl rfl, fun s =>
    ⟨_, _, _, _, s.ctx.kiss.step.jsr, _, _, Kiss.step_z_toNat s.ctx.kiss,
      Kiss.step_w_toNat s.ctx.kiss, rfl, rfl, rfl, Kiss.step_jcong_toNat s.ctx.kiss, ?_, ?_, exec_kissNext s⟩⟩
  · intro hxor
    rw [hxor, Kiss.output_xor]
  · intro hadd
    rw [hadd, Kiss.output_add]

end Sys2Proof.Machine
end

section
/-! PROOFS. The Keccak commands (42_keccak.md R160 to R173): the steps of a round lane by lane, the round
constants and rotations against the definitions they come from, the permutation as its 22 rounds, and the
packings word by word. -/

namespace Sys2Proof.Machine

/-! ### Sequences -/

/-- A sequence in which each term gives the next is the iteration of that map. -/
theorem eq_iterate_of_succ {α : Type} {f : α → α} {u : Nat → α} (hs : ∀ n, u (n + 1) = f (u n))
    (n : Nat) : u n = f^[n] (u 0) := by
  induction n with
  | zero => rfl
  | succ n ih => rw [hs, ih, Function.iterate_succ_apply']

/-! ### The steps of a round, lane by lane -/

/-- `D[x]` of theta (R162): what theta adds to every lane of column x. -/
def thetaEffect (a : Vector Word 25) (x : Fin 5) : Word :=
  (columnParity a)[x + 4] ^^^ rotl32 (columnParity a)[x + 1] 1

theorem columnParity_getElem (a : Vector Word 25) (x : Fin 5) :
    (columnParity a)[x] =
      a[x.val] ^^^ a[x.val + 5] ^^^ a[x.val + 10] ^^^ a[x.val + 15] ^^^ a[x.val + 20] :=
  tabulate_getElem _ x.val x.isLt

/-- Theta on lane (x, y) (R162). -/
theorem theta_lane (a : Vector Word 25) (x y : Fin 5) :
    (theta a)[y.val * 5 + x.val] = a[y.val * 5 + x.val] ^^^ thetaEffect a x := by
  have hcolumn : (y.val * 5 + x.val) % 5 = x.val := by omega
  simp only [theta, tabulate_getElem, Fin.getElem_fin, hcolumn]
  rfl

/-- The lane that pi moves (x, y) to has (x, y) as its source: `2 * 3 = 1` modulo 5 (R163). -/
theorem piSource_pi (x y : Fin 5) (h : y.val + 5 * ((2 * x.val + 3 * y.val) % 5) < 25) :
    piSource ⟨y.val + 5 * ((2 * x.val + 3 * y.val) % 5), h⟩ = ⟨x.val + 5 * y.val, by omega⟩ := by
  have hcolumn : (y.val + 5 * ((2 * x.val + 3 * y.val) % 5)) % 5 = y.val := by omega
  have hrow : (y.val + 5 * ((2 * x.val + 3 * y.val) % 5)) / 5 = (2 * x.val + 3 * y.val) % 5 := by omega
  have hback : (y.val + 3 * ((2 * x.val + 3 * y.val) % 5)) % 5 = x.val := by omega
  simp only [piSource, hcolumn, hrow, hback]

/-- Rho+pi on lane (x, y) (R163). -/
theorem rhoPi_lane (a : Vector Word 25) (x y : Fin 5) :
    (rhoPi a)[y.val + 5 * ((2 * x.val + 3 * y.val) % 5)] =
      rotl32 a[x.val + 5 * y.val] rhoOffsets[x.val + 5 * y.val] := by
  simp only [rhoPi, tabulate_getElem, Fin.getElem_fin, piSource_pi]

/-- Chi on lane (x, y) (R164). -/
theorem chi_lane (b : Vector Word 25) (x y : Fin 5) :
    (chi b)[y.val * 5 + x.val] = b[y.val * 5 + x.val] ^^^
      (~~~ b[y.val * 5 + (x.val + 1) % 5] &&& b[y.val * 5 + (x.val + 2) % 5]) := by
  have hrow : (y.val * 5 + x.val) / 5 = y.val := by omega
  have hcolumn : (y.val * 5 + x.val) % 5 = x.val := by omega
  simp only [chi, tabulate_getElem, Fin.getElem_fin, hrow, hcolumn]

/-- Iota adds the round constant to lane (0, 0) and keeps the others (R165). -/
theorem iota_lane (rc : Word) (a : Vector Word 25) (x y : Fin 5) :
    (iota rc a)[y.val * 5 + x.val] =
      a[y.val * 5 + x.val] ^^^ (if x = 0 ∧ y = 0 then rc else 0) := by
  by_cases h : x = 0 ∧ y = 0
  · obtain ⟨rfl, rfl⟩ := h
    exact Vector.getElem_set_self _
  · have hne : 0 ≠ y.val * 5 + x.val := by omega
    rw [if_neg h, iota, Vector.getElem_set_ne _ _ hne]
    exact BitVec.xor_zero.symm

/-! ### The tables -/

/-- One step of the walk over the lanes that defines the rotations (R163). -/
def rhoWalkStep (p : Fin 5 × Fin 5) : Fin 5 × Fin 5 := (p.2, 2 * p.1 + 3 * p.2)

/-- The table of rotations along the walk (R163). -/
theorem rhoOffsets_walk (t : Fin 24) :
    rhoOffsets[(rhoWalkStep^[t.val] (1, 0)).1.val + 5 * (rhoWalkStep^[t.val] (1, 0)).2.val] =
      ((t.val + 1) * (t.val + 2) / 2) % 32 := by
  revert t
  decide

/-- One step of the LFSR `x^8 + x^6 + x^5 + x^4 + 1` (R161). -/
def lfsrStep (v : BitVec 8) : BitVec 8 :=
  (v <<< 1) ^^^ (if v.getLsbD 7 then 0b01110001 else 0)

/-- The six bits of an STD round constant that the LFSR gives (R161). -/
theorem rcStd_lfsr_bit (r : Fin 22) (j : Fin 6) :
    rcStd[r].getLsbD (2 ^ j.val - 1) = (lfsrStep^[j.val + 7 * r.val] 1).getLsbD 0 := by
  revert r j
  decide

/-- The STD round constants have bits 0, 1, 3, 7, 15 and 31 only (R161). -/
theorem rcStd_masked (r : Fin 22) : rcStd[r] &&& 0x8000808B = rcStd[r] := by
  revert r
  decide

theorem lfsrMask_other_bit {i : Nat} (h : ∀ j, j < 6 → i ≠ 2 ^ j - 1) :
    (0x8000808B : Word).getLsbD i = false := by
  by_cases hi : i < 32
  · revert h
    revert i
    decide
  · exact BitVec.getLsbD_of_ge _ _ (by omega)

theorem rcStd_other_bit (r : Fin 22) {i : Nat} (h : ∀ j, j < 6 → i ≠ 2 ^ j - 1) :
    rcStd[r].getLsbD i = false := by
  rw [← rcStd_masked, BitVec.getLsbD_and, lfsrMask_other_bit h, Bool.and_false]

/-! ### The permutation as rounds -/

/-- The first `n` rounds of the permutation (R167). -/
def keccakRounds (t : RcTable) (n : Nat) (a : Vector Word 25) : Vector Word 25 :=
  ((roundConstants t).toList.take n).foldl (fun a rc => keccakRound rc a) a

theorem keccakRounds_succ (t : RcTable) {n : Nat} (h : n < 22) (a : Vector Word 25) :
    keccakRounds t (n + 1) a = keccakRound (roundConstants t)[n] (keccakRounds t n a) := by
  have hlen : n < (roundConstants t).toList.length := by simpa using h
  rw [keccakRounds, List.take_succ_eq_append_getElem hlen, List.foldl_append]
  rfl

theorem keccakRounds_all (t : RcTable) (a : Vector Word 25) :
    keccakRounds t 22 a = keccakF800 t a := by
  rw [keccakRounds, List.take_of_length_le (by simp), keccakF800]

/-! ### What each command leaves -/

theorem exec_keccakF800 (s : State) :
    exec .keccakF800 s = .next { s with
      ctx.ks := keccakF800 s.params.rcTable s.ctx.ks, engine := .idle, done := true, err := .none } :=
  finishCtx_eq _ s

theorem exec_keccakRound_lt (s : State) {rnd : BitVec 5} (h : rnd.toNat < 22) :
    exec (.keccakRound rnd) s = .next { s with
      ctx.ks := keccakRound (roundConstants s.params.rcTable)[rnd.toNat] s.ctx.ks,
      engine := .idle, done := true, err := .none } :=
  (dif_pos h).trans (finishCtx_eq _ s)

/-- A round index above 21 is an argument error (R169). -/
theorem exec_keccakRound_ge (s : State) {rnd : BitVec 5} (h : 22 ≤ rnd.toNat) :
    exec (.keccakRound rnd) s = .next (s.complete .arg) :=
  dif_neg (Nat.not_lt.2 h)

theorem exec_seedAbsorb (s : State) :
    exec .seedAbsorb s = .next { s with
      ctx.ks := (s.ctx.seedAbsorb s.header s.nonceLo s.nonceHi).ks,
      engine := .idle, done := true, err := .none } :=
  finishCtx_eq _ s

theorem exec_seedExtract (s : State) :
    exec .seedExtract s = .next { s with
      ctx.seedHi := s.ctx.ks[0], ctx.seedLo := s.ctx.ks[1], ctx.skw := lowWords s.ctx.ks,
      engine := .idle, done := true, err := .none } :=
  finishCtx_eq _ s

theorem exec_finalAbsorb (s : State) :
    exec .finalAbsorb s = .next { s with
      ctx.ks := s.ctx.finalAbsorb.ks, engine := .idle, done := true, err := .none } :=
  finishCtx_eq _ s

theorem exec_digestExtract (s : State) :
    exec .digestExtract s = .next { s with
      ctx.dg := lowWords s.ctx.ks, engine := .idle, done := true, err := .none } :=
  finishCtx_eq _ s

theorem execAll_keccakRound_ofNat (s : State) {n : Nat} (h : n < 22) :
    execAll [.keccakRound (BitVec.ofNat 5 n)] s = .next { s with
      ctx.ks := keccakRound (roundConstants s.params.rcTable)[n] s.ctx.ks,
      engine := .idle, done := true, err := .none } := by
  have hnat : (BitVec.ofNat 5 n).toNat = n := by
    rw [BitVec.toNat_ofNat]
    omega
  simp only [execAll, exec_keccakRound_lt s (hnat.trans_lt h), hnat]

/-- KECCAK_ROUND 0 to `n` one after another leave the first `n + 1` rounds of the permutation in KS
(R167, R169). -/
theorem execAll_keccakRound_range (s : State) {n : Nat} (h : n < 22) :
    execAll ((List.range (n + 1)).map fun r => .keccakRound (BitVec.ofNat 5 r)) s = .next { s with
      ctx.ks := keccakRounds s.params.rcTable (n + 1) s.ctx.ks,
      engine := .idle, done := true, err := .none } := by
  rw [keccakRounds_succ _ h]
  induction n with
  | zero => exact execAll_keccakRound_ofNat s h
  | succ n ih =>
    have hn : n < 22 := by omega
    rw [List.range_succ, List.map_append, execAll_append (ih hn), ← keccakRounds_succ _ hn]
    exact execAll_keccakRound_ofNat _ h

/-! ### The packings -/

section
variable (c : Ctx) (header : Vector Word 8) (nonceLo nonceHi : Word)

theorem seedAbsorb_ks_header (i : Fin 8) :
    (c.seedAbsorb header nonceLo nonceHi).ks[i.val] = header[i] := by
  rw [Ctx.seedAbsorb, tabulate_getElem]
  exact dif_pos i.isLt

theorem seedAbsorb_ks_nonceLo : (c.seedAbsorb header nonceLo nonceHi).ks[8] = nonceLo := by
  rw [Ctx.seedAbsorb, tabulate_getElem]
  rfl

theorem seedAbsorb_ks_nonceHi : (c.seedAbsorb header nonceLo nonceHi).ks[9] = nonceHi := by
  rw [Ctx.seedAbsorb, tabulate_getElem]
  rfl

theorem seedAbsorb_ks_padding {i : Fin 25} (h : 10 ≤ i.val) :
    (c.seedAbsorb header nonceLo nonceHi).ks[i] = 0 := by
  have hheader : ¬ i.val < 8 := by omega
  have hlo : i.val ≠ 8 := by omega
  have hhi : i.val ≠ 9 := by omega
  rw [Ctx.seedAbsorb, Fin.getElem_fin, tabulate_getElem, dif_neg hheader, if_neg hlo, if_neg hhi]

theorem finalAbsorb_ks_fm (i : Fin 8) : c.finalAbsorb.ks[i.val] = c.fm[i] := by
  rw [Ctx.finalAbsorb, tabulate_getElem]
  exact dif_pos i.isLt

theorem finalAbsorb_ks_skw (i : Fin 8) : c.finalAbsorb.ks[8 + i.val] = c.skw[i] := by
  have hskw : 8 + i.val < 16 := by omega
  simp [Ctx.finalAbsorb, hskw]

theorem finalAbsorb_ks_padding {i : Fin 25} (h : 16 ≤ i.val) : c.finalAbsorb.ks[i] = 0 := by
  have hfm : ¬ i.val < 8 := by omega
  have hskw : ¬ i.val < 16 := by omega
  rw [Ctx.finalAbsorb, Fin.getElem_fin, tabulate_getElem, dif_neg hfm, dif_neg hskw]

end

theorem lowWords_getElem (ks : Vector Word 25) (i : Fin 8) : (lowWords ks)[i] = ks[i.val] :=
  tabulate_getElem _ i.val i.isLt

/-! ### The obligations -/

/-- Settles O12: the columns, the two intermediate states and the result are those of the four steps, lane
by lane; RND 22 and above is the completion with E_ARG. -/
theorem keccakRoundAppliesFourSteps : Obligations.KeccakRoundAppliesFourSteps := by
  refine ⟨fun w hw => ?_, fun rnd s => ⟨fun h => ?_, fun h => ?_⟩⟩
  · obtain ⟨hop, hrsv⟩ := fields_of_masked hw
    exact decode_eq_ok_iff.2 ⟨hrsv, hop, fun _ => rfl, nofun⟩
  · refine ⟨fun x => (columnParity s.ctx.ks)[x], thetaEffect s.ctx.ks, theta s.ctx.ks,
      rhoPi (theta s.ctx.ks), _, columnParity_getElem s.ctx.ks, fun _ => rfl, theta_lane s.ctx.ks,
      rhoPi_lane (theta s.ctx.ks), fun x y => ?_, exec_keccakRound_lt s h⟩
    rw [keccakRound, iota_lane, chi_lane]
  · rw [exec_keccakRound_ge s h, complete_eq]

/-- Settles O14: the 22 commands leave the 22 rounds in KS (`execAll_keccakRound_range`), and those are the
permutation. -/
theorem keccakF800IsTwentyTwoRounds : Obligations.KeccakF800IsTwentyTwoRounds := by
  refine ⟨selects_of_fields rfl rfl rfl rfl, fun s => ⟨_, exec_keccakF800 s, ?_⟩⟩
  rw [← keccakRounds_all]
  exact execAll_keccakRound_range s (by decide)

/-- Settles O13: the walk and the LFSR are iterations of their steps (`eq_iterate_of_succ`), against which
the tables are checked entry by entry. -/
theorem keccakTablesFollowWalkAndLfsr : Obligations.KeccakTablesFollowWalkAndLfsr := by
  refine ⟨rfl, fun walk h0 hs t ht => ?_, rfl, rfl,
    fun lfsr h0 hs r => ⟨fun j hj => ?_, fun i hi => ?_⟩⟩
  · have hwalk : walk t = rhoWalkStep^[t] (1, 0) := h0 ▸ eq_iterate_of_succ hs t
    simpa only [hwalk] using rhoOffsets_walk ⟨t, ht⟩
  · have hlfsr : lfsr (j + 7 * r.val) = lfsrStep^[j + 7 * r.val] 1 := h0 ▸ eq_iterate_of_succ hs _
    rw [hlfsr]
    exact rcStd_lfsr_bit r ⟨j, hj⟩
  · exact rcStd_other_bit r hi

/-- Settles O15: KS region by region. -/
theorem seedAbsorbPacksHeaderAndNonce : Obligations.SeedAbsorbPacksHeaderAndNonce :=
  ⟨selects_of_fields rfl rfl rfl rfl, fun s =>
    ⟨_, seedAbsorb_ks_header s.ctx s.header s.nonceLo s.nonceHi, seedAbsorb_ks_nonceLo ..,
      seedAbsorb_ks_nonceHi .., fun _ hi => seedAbsorb_ks_padding _ _ _ _ hi, exec_seedAbsorb s⟩⟩

/-- Settles O16: SKW is the low words of KS. -/
theorem seedExtractSplitsState : Obligations.SeedExtractSplitsState :=
  ⟨selects_of_fields rfl rfl rfl rfl, fun s =>
    ⟨_, lowWords_getElem s.ctx.ks, exec_seedExtract s⟩⟩

/-- Settles O17: KS region by region. -/
theorem finalAbsorbPacksMixAndSeed : Obligations.FinalAbsorbPacksMixAndSeed :=
  ⟨selects_of_fields rfl rfl rfl rfl, fun s =>
    ⟨_, finalAbsorb_ks_fm s.ctx, finalAbsorb_ks_skw s.ctx,
      fun _ hi => finalAbsorb_ks_padding s.ctx hi, exec_finalAbsorb s⟩⟩

/-- Settles O18: DG is the low words of KS. -/
theorem digestExtractCopiesLowWords : Obligations.DigestExtractCopiesLowWords :=
  ⟨selects_of_fields rfl rfl rfl rfl, fun s =>
    ⟨_, lowWords_getElem s.ctx.ks, exec_digestExtract s⟩⟩

end Sys2Proof.Machine
end

section
/-! PROOFS. The mix commands (43_mix.md R190 to R199): each command's body word by word, what it leaves, a DAG
item read or faulting, and a loop iteration as the run of the commands it names. -/

namespace Sys2Proof.Machine

/-! ### Commands with an ARG field -/

/-- A word with the OP of a command that uses ARG but not RND is that command with the word's ARG
(30_encoding.md R92, R94). -/
theorem decode_of_masked_arg {w op : Word} {i : Instr} (hw : w &&& 0x0000E0FF = op)
    (hrsv : rsvField op = 0) (hop : opField op = i.op) (hrnd : usesRnd i = false)
    (harg : argField w = i.arg) : decode w = .ok i := by
  obtain ⟨hopw, hrsvw⟩ := fields_of_masked hw
  exact decode_eq_ok_iff.2 ⟨hrsvw.trans hrsv, hopw.trans hop, by simp [hrnd], fun _ => harg⟩

/-! ### The direct context after a command -/

/-- `s` after a command that completed with E_NONE and whose one effect was to make `c` the direct context. -/
def State.ranTo (s : State) (c : Ctx) : State :=
  { s with ctx := c, engine := .idle, done := true, err := .none }

theorem finishCtx_ranTo (c : Ctx) (s : State) : finishCtx c s = .next (s.ranTo c) := finishCtx_eq c s

@[simp] theorem ranTo_cacheValid (s : State) (c : Ctx) : (s.ranTo c).cacheValid = s.cacheValid := rfl

@[simp] theorem ranTo_dagCfgOK (s : State) (c : Ctx) : (s.ranTo c).dagCfgOK = s.dagCfgOK := rfl

/-! ### What each command leaves -/

section
variable (s : State)

theorem exec_mixFill :
    exec .mixFill s = .next (s.ranTo (s.ctx.mixFill s.params.kissCombine)) := finishCtx_ranTo _ s

theorem exec_mixReduce : exec .mixReduce s = .next (s.ranTo s.ctx.mixReduce) := finishCtx_ranTo _ s

theorem exec_loopSeed (arg : BitVec 16) :
    exec (.loopSeed arg) s = .next (s.ranTo (s.ctx.loopSeed arg)) := finishCtx_ranTo _ s

theorem exec_mathMix :
    exec .mathMix s = .next (s.ranTo (s.ctx.mathMix s.params.kissCombine)) := finishCtx_ranTo _ s

theorem exec_mixUpdate : exec .mixUpdate s = .next (s.ranTo s.ctx.mixUpdate) := finishCtx_ranTo _ s

theorem exec_finalReduce : exec .finalReduce s = .next (s.ranTo s.ctx.finalReduce) :=
  finishCtx_ranTo _ s

variable {s}

/-- CACHE_MIX without a valid cache (R194). -/
theorem exec_cacheMix_noCache (h : s.cacheValid = false) :
    exec .cacheMix s = .next (s.complete .noCache) := requireCache_bad h

theorem exec_cacheMix (h : s.cacheValid = true) :
    exec .cacheMix s = .next (s.ranTo (s.ctx.cacheMix s.params.kissCombine s.cache)) :=
  (requireCache_ok h).trans (finishCtx_ranTo _ s)

/-- DAG_MIX on a bad DAG configuration (R196). -/
theorem exec_dagMix_config (h : s.dagCfgOK = false) (arg : BitVec 16) :
    exec (.dagMix arg) s = .next (s.complete .config) := requireDag_bad h

theorem exec_dagMix (h : s.dagCfgOK = true) {arg : BitVec 16} {c : Ctx}
    (hc : s.ctx.dagMix s.hashEnv arg = some c) : exec (.dagMix arg) s = .next (s.ranTo c) := by
  rw [exec, execDagMix, requireDag_ok h, hc]
  exact finishCtx_ranTo c s

/-- DAG_MIX that takes a DAG fault (R196, 60_exceptions.md R277). -/
theorem exec_dagMix_fault (h : s.dagCfgOK = true) {arg : BitVec 16}
    (hc : s.ctx.dagMix s.hashEnv arg = none) :
    exec (.dagMix arg) s = .next ((s.clobber (writeSet (.dagMix arg))).complete .mem) := by
  rw [exec, execDagMix, requireDag_ok h, hc]
  rfl

theorem exec_loopIter (hok : s.dagCfgOK = true) (hv : s.cacheValid = true) {arg : BitVec 16} {c : Ctx}
    (hc : s.ctx.loopIter s.hashEnv arg = some c) : exec (.loopIter arg) s = .next (s.ranTo c) := by
  rw [exec, execLoopIter, requireDag_ok hok, requireCache_ok hv, hc]
  exact finishCtx_ranTo c s

end

/-! ### The bodies, word by word -/

/-- MIX_FILL's word `r` of lane `l` is the lane's draw `r + 1` (R191). -/
theorem mixFill_word (combine : KissCombine) (c : Ctx) (l : Fin 16) (r : Fin 32) :
    (c.mixFill combine).lm[l][r] =
      (Kiss.step^[r.val + 1] (kissInit c.seed (BitVec.ofNat 32 l.val))).output combine := by
  rw [mixFill_lane]
  exact kissDraws_getElem combine 32 _ r.val r.isLt

/-- The fold of a lane's first `r` words (R192). -/
def laneFold (lane : Vector Word 32) (r : Nat) : Word :=
  (lane.toList.take r).foldl fnv1a fnvOffsetBasis

theorem laneFold_succ (lane : Vector Word 32) (r : Fin 32) :
    laneFold lane (r.val + 1) = fnv1a (laneFold lane r.val) lane[r] := by
  have hr : r.val < lane.toList.length := by simp
  rw [laneFold, List.take_succ_eq_append_getElem hr, List.foldl_append]
  rfl

theorem mixReduce_word (c : Ctx) (l : Fin 16) : c.mixReduce.mx[l] = laneFold c.lm[l] 32 := by
  rw [laneFold, List.take_of_length_le (by simp)]
  exact tabulate_getElem _ l.val l.isLt

theorem mixUpdate_word (c : Ctx) (l : Fin 16) (r : Fin 32) :
    c.mixUpdate.lm[l][r] = fnv1a c.lm[l][r] c.mx[l] := by
  simp [Ctx.mixUpdate]

theorem finalReduce_word (c : Ctx) (i : Fin 8) :
    c.finalReduce.fm[i] = fnv1a (fnv1a fnvOffsetBasis c.lm[i.val][0]) c.lm[i.val + 8][0] :=
  tabulate_getElem _ i.val i.isLt

theorem argWord_toNat (arg : BitVec 16) : (argWord arg).toNat = arg.toNat :=
  BitVec.toNat_setWidth_of_le (by decide)

/-! ### One DAG item read, or faulting -/

/-- An item none of whose 64 bytes faults is read (20_memory.md R66, R68). -/
theorem dagItem_readable {s : State} {idx : Nat}
    (h : ∀ x, s.dagBase.toNat + 64 * idx ≤ x → x < s.dagBase.toNat + 64 * idx + 64 →
      dagFault s.params x = false) :
    s.dagItem idx =
      some (tabulate fun k => s.dag.word (s.dagBase.toNat + 64 * idx + 4 * k.val)) := by
  rw [State.dagItem, requestFaults_false h]
  rfl

/-- An item one of whose 64 bytes faults is not read (20_memory.md R66). -/
theorem dagItem_faulting {s : State} {idx x : Nat} (hlo : s.dagBase.toNat + 64 * idx ≤ x)
    (hhi : x < s.dagBase.toNat + 64 * idx + 64) (hx : dagFault s.params x = true) :
    s.dagItem idx = none := by
  rw [State.dagItem, (requestFaults_iff _ _ _).2 ⟨x, hlo, hhi, hx⟩]
  rfl

section
variable {env : HashEnv} {arg : BitVec 16} {c : Ctx}

/-- An item read is merged word by word, from MX[lane] on, with 16 draws (R196). -/
theorem dagMix_of_item {words : Fin 16 → Word}
    (h : env.item (c.dagIndex env.items (laneOf (argWord arg))) = some (tabulate words)) :
    ∃ mx : Vector Word 16,
      (∀ k : Fin 16, mx[laneOf (argWord arg) + k] =
        randomMerge c.mx[laneOf (argWord arg) + k] (words k)
          ((Kiss.step^[k.val + 1] c.kiss).output env.params.kissCombine)) ∧
      c.dagMix env arg = some { c with mx := mx, kiss := Kiss.step^[16] c.kiss } := by
  obtain ⟨hkiss, hword⟩ := mergeItem_spec env.params.kissCombine (laneOf (argWord arg))
    (tabulate words) (c.mx, c.kiss)
  refine ⟨_, fun k => (hword k).trans ?_, ?_⟩
  · rw [Fin.getElem_fin (tabulate words), tabulate_getElem]
  · simp only [Ctx.dagMix, h, hkiss]

theorem dagMix_of_fault (h : env.item (c.dagIndex env.items (laneOf (argWord arg))) = none) :
    c.dagMix env arg = none := by
  simp only [Ctx.dagMix, h]

end

/-- An array of registers outside the write set keeps its words over a DAG fault (60_exceptions.md R277). -/
theorem tabulate_drawOrKeep_kept {s : State} {ws : Reg → Bool} {n : Nat} {reg : Fin n → Reg}
    {v : Vector Word n} (hw : ∀ i, ws (reg i) = false) (hv : ∀ i, s.readReg (reg i) = v[i]) :
    (tabulate fun i => s.drawOrKeep ws (reg i)) = v :=
  (tabulate_congr fun i => (drawOrKeep_kept (hw i)).trans (hv i)).trans (tabulate_self v)

/-- A DAG fault in DAG_MIX draws MX and the KISS registers of the context and no others (10_state.md R22). -/
theorem drawnCtx_dagMix (arg : BitVec 16) (s : State) :
    ∃ (mx : Vector Word 16) (kiss : Kiss),
      s.drawnCtx (writeSet (.dagMix arg)) = { s.ctx with mx := mx, kiss := kiss } := by
  have hlm : (s.drawnCtx (writeSet (.dagMix arg))).lm = s.ctx.lm :=
    (tabulate_congr fun _ => tabulate_drawOrKeep_kept (fun _ => rfl) fun _ => rfl).trans
      (tabulate_self s.ctx.lm)
  refine ⟨_, _, (Ctx.mk.injEq ..).mpr
    ⟨?ks, ?skw, drawOrKeep_kept rfl, drawOrKeep_kept rfl, rfl, hlm, rfl, drawOrKeep_kept rfl, ?fm, ?dg⟩⟩
  all_goals exact tabulate_drawOrKeep_kept (fun _ => rfl) fun _ => rfl

/-- A DAG fault in DAG_MIX draws no register outside the context (10_state.md R22). -/
theorem clobber_dagMix (arg : BitVec 16) (s : State) :
    ∃ (mx : Vector Word 16) (kiss : Kiss), s.clobber (writeSet (.dagMix arg)) =
      { s with ctx.mx := mx, ctx.kiss := kiss, fresh := s.fresh + 0x1400 } := by
  obtain ⟨mx, kiss, hctx⟩ := drawnCtx_dagMix arg s
  have hrhash := tabulate_drawOrKeep_kept (s := s) (ws := writeSet (.dagMix arg)) (reg := .rhash)
    (fun _ => rfl) fun _ => rfl
  have hrmix := tabulate_drawOrKeep_kept (s := s) (ws := writeSet (.dagMix arg)) (reg := .rmix)
    (fun _ => rfl) fun _ => rfl
  have hcache := tabulate_drawOrKeep_kept (s := s) (ws := writeSet (.dagMix arg)) (reg := .cache)
    (fun _ => rfl) fun _ => rfl
  refine ⟨mx, kiss, ?_⟩
  rw [State.clobber, hctx, hrhash, hrmix, hcache]
  rfl

/-! ### Runs of commands on one context -/

section
variable {s : State}

/-- A command that completes, then the others (70_reset_and_hazards.md R312). -/
theorem execAll_cons {i : Instr} {t : State} (h : exec i s = .next t) (is : List Instr) :
    execAll (i :: is) s = execAll is t := by
  rw [execAll, h]

/-- A command repeated iterates its body. -/
theorem execAll_replicate {i : Instr} {body : Ctx → Ctx}
    (h : ∀ c, exec i (s.ranTo c) = .next (s.ranTo (body c))) (n : Nat) (c : Ctx) :
    execAll (List.replicate n i) (s.ranTo c) = .next (s.ranTo (body^[n] c)) := by
  induction n generalizing c with
  | zero => rfl
  | succ n ih =>
    rw [List.replicate_succ, execAll_cons (h c)]
    exact ih (body c)

/-- Commands run one after another fold their bodies, as long as each completes. -/
theorem execAll_map {α : Type} {cmd : α → Instr} {body : Ctx → α → Option Ctx}
    (h : ∀ a c c', body c a = some c' → exec (cmd a) (s.ranTo c) = .next (s.ranTo c'))
    (as : List α) {c c' : Ctx} (hc : as.foldlM body c = some c') :
    execAll (as.map cmd) (s.ranTo c) = .next (s.ranTo c') := by
  induction as generalizing c with
  | nil =>
    cases hc
    rfl
  | cons a as ih =>
    rw [List.foldlM_cons] at hc
    obtain ⟨c₁, ha, has⟩ := Option.bind_eq_some_iff.1 hc
    rw [List.map_cons, execAll_cons (h a c c₁ ha)]
    exact ih has

/-- LOOP_ITER's commands, run one by one, leave the context its body gives (R198). -/
theorem execAll_loopCommands (hok : s.dagCfgOK = true) (hv : s.cacheValid = true) {arg : BitVec 16}
    {c : Ctx} (hc : s.ctx.loopIter s.hashEnv arg = some c) :
    execAll (loopCommands arg) s = .next (s.ranTo c) := by
  obtain ⟨c₄, hdag, rfl⟩ := Option.map_eq_some_iff.1 hc
  have hcacheMix (c : Ctx) : exec .cacheMix (s.ranTo c) =
      .next (s.ranTo (c.cacheMix s.hashEnv.params.kissCombine s.hashEnv.cache)) :=
    exec_cacheMix ((ranTo_cacheValid s c).trans hv)
  have hmathMix (c : Ctx) : exec .mathMix (s.ranTo c) =
      .next (s.ranTo (c.mathMix s.hashEnv.params.kissCombine)) :=
    exec_mathMix (s.ranTo c)
  have hdagMix (i : Nat) (c c' : Ctx) (h : c.dagMix s.hashEnv (BitVec.ofNat 16 i) = some c') :
      exec (.dagMix (BitVec.ofNat 16 i)) (s.ranTo c) = .next (s.ranTo c') :=
    exec_dagMix ((ranTo_dagCfgOK s c).trans hok) h
  have hseed : execAll [.mixReduce, .loopSeed arg] s =
      .next (s.ranTo (s.ctx.mixReduce.loopSeed arg)) :=
    (execAll_cons (exec_mixReduce s) _).trans (execAll_cons (exec_loopSeed _ arg) [])
  have hcaches := (execAll_append hseed _).trans (execAll_replicate hcacheMix 11 _)
  have hmaths := (execAll_append hcaches _).trans (execAll_replicate hmathMix 18 _)
  have hitems := (execAll_append hmaths _).trans (execAll_map hdagMix (List.range 64) hdag)
  have hupdate : execAll [.mixUpdate] (s.ranTo c₄) = .next (s.ranTo c₄.mixUpdate) :=
    execAll_cons (exec_mixUpdate _) []
  exact (execAll_append hitems _).trans hupdate

end

/-! ### The obligations -/

/-- Settles O19: the lanes word by word, and lane 15's generator after its 32 draws (`mixFill_kiss`). -/
theorem mixFillFillsLanesInOrder : Obligations.MixFillFillsLanesInOrder := by
  refine ⟨selects_of_fields rfl rfl rfl rfl, fun s =>
    ⟨_, mixFill_word s.params.kissCombine s.ctx, ?_⟩⟩
  have hkiss : (s.ctx.mixFill s.params.kissCombine).kiss = Kiss.step^[32] (kissInit s.ctx.seed 15) :=
    mixFill_kiss s.params.kissCombine s.ctx
  rw [exec_mixFill, ← hkiss]
  rfl

/-- Settles O20: the recurrence is the fold of a lane's first words. -/
theorem mixReduceFoldsEachLane : Obligations.MixReduceFoldsEachLane :=
  ⟨selects_of_fields rfl rfl rfl rfl, fun s =>
    ⟨fun l => laneFold s.ctx.lm[l], _, fun _ => rfl, fun l => laneFold_succ s.ctx.lm[l],
      mixReduce_word s.ctx, exec_mixReduce s⟩⟩

/-- Settles O21: the word's ARG is LOOP_SEED's, and zero-extended it keeps its value. -/
theorem loopSeedSeedsWithArg : Obligations.LoopSeedSeedsWithArg :=
  ⟨fun _ hw => decode_of_masked_arg hw rfl rfl rfl rfl, fun arg s =>
    ⟨argWord arg, argWord_toNat arg, exec_loopSeed s arg⟩⟩

/-- Settles O22: the completion with E_NOCACHE, or the body on the generator's first two outputs
(`cacheMix_eq`), which writes one word of MX. -/
theorem cacheMixMergesCacheWord : Obligations.CacheMixMergesCacheWord := by
  refine ⟨selects_of_fields rfl rfl rfl rfl, fun s => ⟨fun h => ?_, fun h => ?_⟩⟩
  · rw [exec_cacheMix_noCache h, complete_eq]
  · refine ⟨laneOf (s.ctx.kiss.step.output s.params.kissCombine), ⟨_, Nat.mod_lt _ (by decide)⟩, _,
      rfl, rfl, Vector.getElem_set_self _, fun l hl => getElem_set_of_ne _ hl _, ?_⟩
    rw [exec_cacheMix h, cacheMix_eq]
    rfl

/-- Settles O23: the body on the generator's first five outputs (`mathMix_eq`), which writes one word of
MX. -/
theorem mathMixDrawsFiveAndMerges : Obligations.MathMixDrawsFiveAndMerges := by
  refine ⟨selects_of_fields rfl rfl rfl rfl, fun s => ?_⟩
  have hbody := mathMix_eq s.params.kissCombine s.ctx
    (fun i => (Kiss.step^[i + 1] s.ctx.kiss).output s.params.kissCombine) fun _ => rfl
  refine ⟨_, laneOf _, laneOf _, laneOf _, _, fun _ => rfl, rfl, rfl, rfl,
    Vector.getElem_set_self _, fun l hl => getElem_set_of_ne _ hl _, ?_⟩
  rw [exec_mathMix, hbody]
  rfl

/-- Settles O24: the check, then the item read and merged word by word (`mergeItem_spec`), or the fault's
draws (`clobber_dagMix`). -/
theorem dagMixMergesOneItem : Obligations.DagMixMergesOneItem := by
  refine ⟨fun _ hw => decode_of_masked_arg hw rfl rfl rfl rfl, fun arg s =>
    ⟨fun hbad => ?_, fun hok => ?_⟩⟩
  · rw [exec_dagMix_config hbad, complete_eq]
  refine ⟨laneOf (argWord arg), _, _, congrArg (· % 16) (argWord_toNat arg), rfl, rfl,
    fun hclear => ?_, fun x hlo hhi hx => ?_⟩
  · obtain ⟨mx, hword, hbody⟩ :=
      dagMix_of_item (env := s.hashEnv) (arg := arg) (dagItem_readable hclear)
    exact ⟨mx, hword, exec_dagMix hok hbody⟩
  · obtain ⟨mx, kiss, hdrawn⟩ := clobber_dagMix arg s
    refine ⟨mx, kiss, s.fresh + 0x1400, ?_⟩
    rw [exec_dagMix_fault hok (dagMix_of_fault (dagItem_faulting hlo hhi hx)), complete_eq, hdrawn]

/-- Settles O25: the lanes word by word. -/
theorem mixUpdateMixesEveryLaneWord : Obligations.MixUpdateMixesEveryLaneWord :=
  ⟨selects_of_fields rfl rfl rfl rfl, fun s => ⟨_, mixUpdate_word s.ctx, exec_mixUpdate s⟩⟩

/-- Settles O26: over a readable window the body gives a context (`loopIter_some`), and both LOOP_ITER and its
commands leave it. -/
theorem loopIterIsItsCommandsInOrder : Obligations.LoopIterIsItsCommandsInOrder := by
  intro arg s hok hv hclear
  have hitems : 0 < s.hashEnv.items := Nat.lt_of_lt_of_le (by decide) (dagItems_pos hok)
  obtain ⟨c, hc, hidx⟩ := loopIter_some hitems (hashEnv_item_clear hclear) arg s.ctx
  have hexec := exec_loopIter hok hv hc
  refine ⟨c, ?_, hexec, (execAll_loopCommands hok hv hc).trans hexec.symm⟩
  rw [hidx, argWord_toNat]

/-- Settles O28: FM word by word. -/
theorem finalReduceFoldsRegisterZero : Obligations.FinalReduceFoldsRegisterZero :=
  ⟨selects_of_fields rfl rfl rfl rfl, fun s => ⟨_, finalReduce_word s.ctx, exec_finalReduce s⟩⟩

end Sys2Proof.Machine
end

section
/-! PROOFS. What every step keeps of a running SEARCH's result (44_search.md R239, R240, R244): the hits of a
thread are the same before and after a step, a live thread's step passes a nonce only when it is no hit, and a
commit stores the hit its thread stands at. -/

namespace Sys2Proof.Machine

/-! ### Which nonces are hits -/

/-- The states agree on every operand of a search thread's nonces and hashes (44_search.md R232, R237). -/
def SameHashes (s t : State) : Prop :=
  t.hashEnv = s.hashEnv ∧ t.header = s.header ∧ t.target = s.target ∧ t.startNonce = s.startNonce ∧
    t.threads = s.threads ∧ t.npt = s.npt

/-- The states agree on the result slot and on FOUND (10_state.md R26, R37, R41, R42). -/
def SameSlot (s t : State) : Prop :=
  t.found = s.found ∧ t.rnonce = s.rnonce ∧ t.rhash = s.rhash ∧ t.rmix = s.rmix

theorem nonceOf_congr {s t : State} (h : SameHashes s t) : t.nonceOf = s.nonceOf := by
  obtain ⟨-, -, -, hstart, -, hnpt⟩ := h
  funext u k
  rw [State.nonceOf, State.nonceOf, hstart, hnpt]

theorem hitAt_congr {s t : State} (h : SameHashes s t) : t.hitAt = s.hitAt := by
  have hnonce := nonceOf_congr h
  obtain ⟨henv, hheader, htarget, -⟩ := h
  funext u k
  rw [State.hitAt, State.hitAt, henv, hheader, htarget, hnonce]

theorem firstHit_congr {s t : State} (h : SameHashes s t) : t.firstHit = s.firstHit := by
  have hhit := hitAt_congr h
  obtain ⟨-, -, -, -, hthreads, hnpt⟩ := h
  funext u k
  rw [State.firstHit, State.firstHit, hhit, hthreads, hnpt]

/-- A nonce whose hash is known is a hit exactly when that digest is one (R239). -/
theorem hitAt_iff_isHit {s : State} {t k : Nat} {dg fm : Vector Word 8}
    (h : kawHash s.hashEnv s.header (s.nonceOf t k) = some (dg, fm)) :
    s.hitAt t k ↔ isHit (s.nonceOf t k) dg s.target = true := by
  simp [State.hitAt, h]

/-! ### The two halves of a sound result -/

/-- No live thread of `r` has passed a hit (R244). -/
def State.noHitPassed (s : State) (r : Search) : Prop :=
  ∀ t, (r.thread t).live = true → ∀ j, j < (r.thread t).k → ¬ s.hitAt t j

/-- After a commit the slot holds some thread's first hit with its own digest and final mix (R244). -/
def State.slotSound (s : State) : Prop :=
  s.found = true → ∃ t k, s.firstHit t k ∧ s.rnonce = s.nonceOf t k ∧
    kawHash s.hashEnv s.header s.rnonce = some (s.rhash, s.rmix)

theorem resultSound_iff (s : State) :
    s.resultSound ↔ ∀ r, s.engine = .searching r → s.noHitPassed r ∧ s.slotSound :=
  Iff.rfl

theorem noHitPassed_congr {s t : State} (h : SameHashes s t) {r : Search} (hr : s.noHitPassed r) :
    t.noHitPassed r := by
  rwa [State.noHitPassed, hitAt_congr h]

theorem slotSound_congr {s t : State} (h : SameHashes s t) (hslot : SameSlot s t) (hs : s.slotSound) :
    t.slotSound := by
  have hfirst := firstHit_congr h
  have hnonce := nonceOf_congr h
  obtain ⟨henv, hheader, -⟩ := h
  obtain ⟨hfound, hrnonce, hrhash, hrmix⟩ := hslot
  rwa [State.slotSound, hfirst, hnonce, henv, hheader, hfound, hrnonce, hrhash, hrmix]

/-- A retired thread is no longer live, and the others stand where they stood (R239). -/
theorem noHitPassed_retire {s : State} {r : Search} {t : Nat} (ht : t < r.thr.length)
    (hr : s.noHitPassed r) : s.noHitPassed (r.retire t) := by
  intro u hlive j hj
  rw [thread_retire_k ht] at hj
  rw [Search.retire, thread_setThread ht] at hlive
  split at hlive
  · cases hlive
  · exact hr u hlive j hj

/-- A thread that moves on from a nonce that is no hit has passed no hit (R239). -/
theorem noHitPassed_advance {s : State} {r : Search} {t : Nat} (ht : t < r.thr.length) (npt : Nat)
    (hlive : (r.thread t).live = true) (hmiss : ¬ s.hitAt t (r.thread t).k) (hr : s.noHitPassed r) :
    s.noHitPassed (r.advance npt t) := by
  intro u hu j hj
  rw [Search.advance, thread_setThread ht] at hu hj
  split at hu
  · rename_i heq
    subst heq
    rw [if_pos rfl] at hj
    rcases Nat.lt_succ_iff_lt_or_eq.1 hj with hlt | rfl
    · exact hr u hlive j hlt
    · exact hmiss
  · rename_i hne
    rw [if_neg hne] at hj
    exact hr u hu j hj

/-! ### A commit -/

theorem commit_sameHashes (s : State) (n : DWord) (dg fm : Vector Word 8) :
    SameHashes s (s.commit n dg fm) := by
  rw [commit_eq]
  exact ⟨rfl, rfl, rfl, rfl, rfl, rfl⟩

theorem commit_of_rnonce_zero {s : State} (h : s.rnonce = 0) (n : DWord) (dg fm : Vector Word 8) :
    s.commit n dg fm = { s with
      rnonceLo := lo32 n, rnonceHi := hi32 n, rhash := dg, rmix := fm, found := true } :=
  if_pos h

theorem commit_of_rnonce_ne {s : State} (h : s.rnonce ≠ 0) (n : DWord) (dg fm : Vector Word 8) :
    s.commit n dg fm = s :=
  if_neg h

/-- Committing a thread's first hit with its own hash keeps the slot sound (R240, R244). -/
theorem slotSound_commit {s : State} {t k : Nat} {dg fm : Vector Word 8} (hs : s.slotSound)
    (hfirst : s.firstHit t k) (hhash : kawHash s.hashEnv s.header (s.nonceOf t k) = some (dg, fm)) :
    (s.commit (s.nonceOf t k) dg fm).slotSound := by
  by_cases h : s.rnonce = 0
  · intro _
    have hsame := commit_sameHashes s (s.nonceOf t k) dg fm
    refine ⟨t, k, ?_, ?_, ?_⟩
    · rwa [firstHit_congr hsame]
    · rw [commit_rnonce h, nonceOf_congr hsame]
    · obtain ⟨henv, hheader, -⟩ := hsame
      rw [commit_rnonce h, henv, hheader, hhash, commit_of_rnonce_zero h]
  · rwa [commit_of_rnonce_ne h]

/-! ### The ways a step leaves a SEARCH running -/

/-- A SEARCH starts with every thread at its first nonce and FOUND clear (R236). -/
theorem startsSearch_resultSound {s t : State} (h : StartsSearch s t) : t.resultSound := by
  obtain ⟨rest, -, -, -, ⟨w, -, rfl⟩ | ⟨-, rfl⟩⟩ := h
  all_goals
    rw [resultSound_iff]
    rintro r ⟨⟩
    refine ⟨fun u _ j hj => ?_, fun hfound => by cases hfound⟩
    have hk : (s.newSearch.thread u).k = 0 := newSearch_thread_k s u
    exact absurd (hk ▸ hj) (Nat.not_lt_zero j)

/-- A live thread's step keeps the result sound: it exits, faults, commits the hit it stands at, or passes a
nonce that is no hit (R239). -/
theorem threadStep_resultSound {s : State} {r : Search} {t : Nat} (hw : Search.wf s r)
    (hlive : (r.thread t).live = true) (hpassed : s.noHitPassed r) (hslot : s.slotSound) :
    (threadStep t r s).resultSound := by
  obtain ⟨hthr, -⟩ := hw
  have ht := lt_of_live hlive
  have hretire := noHitPassed_retire ht hpassed
  rw [resultSound_iff]
  intro r' hr'
  rcases threadStep_cases t r s with
    h | ⟨-, -, h⟩ | ⟨dg, fm, hlt, hhash, hhit, h⟩ | ⟨dg, fm, -, hhash, hmiss, h⟩ <;>
    rw [h] at hr' ⊢ <;> cases hr'
  · exact ⟨hretire, hslot⟩
  · exact ⟨hretire, hslot⟩
  · have hfirst : s.firstHit t (r.thread t).k :=
      ⟨hthr ▸ ht, hlt, (hitAt_iff_isHit hhash).2 hhit, hpassed t hlive⟩
    exact ⟨noHitPassed_congr (commit_sameHashes s _ dg fm) hretire, slotSound_commit hslot hfirst hhash⟩
  · have hpass : ¬ s.hitAt t (r.thread t).k := fun hhit => by
      rw [(hitAt_iff_isHit hhash).1 hhit] at hmiss
      cases hmiss
    exact ⟨noHitPassed_advance ht _ hlive hpass hpassed, hslot⟩

/-- A host access during a SEARCH keeps the result sound (R242). -/
theorem keepsSearch_resultSound {s t : State} (h : KeepsSearch s t) (hs : s.resultSound) :
    t.resultSound := by
  obtain ⟨r, abort, hr, ht⟩ := h
  obtain ⟨hpassed, hslot⟩ := hs r hr
  rw [ht, resultSound_iff]
  rintro r' ⟨⟩
  exact ⟨hpassed, hslot⟩

/-- Settles O40: by the ways a step can leave a SEARCH running (`step_search`). -/
theorem stepKeepsSearchResultSound : Obligations.StepKeepsSearchResultSound := by
  intro s t hw hs h
  rcases step_search h with hnone | hstart | ⟨r, rest, n, u, hr, hlive, rfl⟩ | hkeep
  · exact fun r hr => absurd hr (hnone r)
  · exact startsSearch_resultSound hstart
  · obtain ⟨-, hsearch⟩ := hw
    obtain ⟨hpassed, hslot⟩ := hs r hr
    exact threadStep_resultSound (s := { s.popInput rest with fresh := n }) (hsearch r hr) hlive hpassed
      hslot
  · exact keepsSearch_resultSound hkeep hs

end Sys2Proof.Machine
end

section
/-! PROOFS. The hot cache, the whole hash and the comparison (44_search.md R230 to R235): what CACHE_LOAD loads,
that a hash overwrites all of its context, HASH as the run of program P3's commands, and the digest's integer
compared word by word. -/

namespace Sys2Proof.Machine

/-! ### The hot cache -/

/-- `LE32` as a number (00_scope.md R16). -/
theorem le32_toNat (b0 b1 b2 b3 : Byte) :
    (le32 b0 b1 b2 b3).toNat =
      b0.toNat + b1.toNat * 2 ^ 8 + b2.toNat * 2 ^ 16 + b3.toNat * 2 ^ 24 := by
  have append_toNat {n : Nat} (hi : BitVec n) (lo : Byte) :
      (hi ++ lo).toNat = hi.toNat * 2 ^ 8 + lo.toNat := by
    rw [BitVec.toNat_append, ← Nat.shiftLeft_add_eq_or_of_lt lo.isLt, Nat.shiftLeft_eq]
  rw [le32, append_toNat, append_toNat, append_toNat]
  ring

/-- The words of the DAG's first 16 KiB (20_memory.md R69). -/
def State.dagHead (s : State) : Vector Word 4096 :=
  tabulate fun j => s.dag.word (s.dagBase.toNat + 4 * j.val)

theorem dagHead_getElem (s : State) (j : Fin 4096) :
    s.dagHead[j] = s.dag.word (s.dagBase.toNat + 4 * j.val) :=
  tabulate_getElem _ j.val j.isLt

/-- The hot cache is loaded when none of its bytes faults (20_memory.md R66, R69). -/
theorem preload_readable {s : State}
    (h : ∀ x, s.dagBase.toNat ≤ x → x < s.dagBase.toNat + 16384 → dagFault s.params x = false) :
    s.preload = some s.dagHead := by
  rw [State.preload, requestFaults_false h]
  rfl

/-- The preload faults when one of its bytes does (20_memory.md R66). -/
theorem preload_faulting {s : State} {x : Nat} (hlo : s.dagBase.toNat ≤ x)
    (hhi : x < s.dagBase.toNat + 16384) (hx : dagFault s.params x = true) : s.preload = none := by
  rw [State.preload, (requestFaults_iff _ _ _).2 ⟨x, hlo, hhi, hx⟩]
  rfl

/-- A DAG fault in CACHE_LOAD draws CACHE and no other register (10_state.md R22). -/
theorem clobber_cacheLoad (s : State) :
    ∃ words : Vector Word 4096, s.clobber (writeSet .cacheLoad) =
      { s with cache := words, fresh := s.fresh + 0x1400 } := by
  have hctx : s.drawnCtx (writeSet .cacheLoad) = s.ctx := drawnCtx_kept fun r hr => by
    cases r with
    | cache j => cases hr
    | _ => rfl
  have hrhash := tabulate_drawOrKeep_kept (s := s) (ws := writeSet .cacheLoad) (reg := .rhash)
    (fun _ => rfl) fun _ => rfl
  have hrmix := tabulate_drawOrKeep_kept (s := s) (ws := writeSet .cacheLoad) (reg := .rmix)
    (fun _ => rfl) fun _ => rfl
  refine ⟨(s.clobber (writeSet .cacheLoad)).cache, ?_⟩
  conv_lhs => rw [State.clobber, hctx, hrhash, hrmix]
  rfl

section
variable {s : State}

theorem exec_cacheLoad_config (h : s.dagCfgOK = false) :
    exec .cacheLoad s = .next (s.complete .config) := requireDag_bad h

theorem exec_cacheLoad {words : Vector Word 4096} (hok : s.dagCfgOK = true)
    (hp : s.preload = some words) :
    exec .cacheLoad s = .next ((s.loadCache words).complete .none) := by
  rw [exec, execCacheLoad, requireDag_ok hok, hp]
  rfl

theorem exec_cacheLoad_fault (hok : s.dagCfgOK = true) (hp : s.preload = none) :
    exec .cacheLoad s =
      .next ((s.dropCache.clobber (writeSet .cacheLoad)).complete .mem) := by
  rw [exec, execCacheLoad, requireDag_ok hok, hp]
  rfl

end

/-- Settles O29: the check, then the words loaded (`preload_readable`) or the fault's draws
(`clobber_cacheLoad`). -/
theorem cacheLoadReadsFirstSixteenKiB : Obligations.CacheLoadReadsFirstSixteenKiB := by
  refine ⟨selects_of_fields rfl rfl rfl rfl, fun s => ⟨fun hbad => ?_, fun hok =>
    ⟨fun hclear => ⟨s.dagHead, fun j => ?_, ?_⟩, fun x hlo hhi hx => ?_⟩⟩⟩
  · rw [exec_cacheLoad_config hbad, complete_eq]
  · rw [dagHead_getElem]
    exact le32_toNat _ _ _ _
  · rw [exec_cacheLoad hok (preload_readable hclear), complete_none_eq]
    rfl
  · obtain ⟨words, hdrawn⟩ := clobber_cacheLoad s.dropCache
    refine ⟨words, s.fresh + 0x1400, ?_⟩
    rw [exec_cacheLoad_fault hok (preload_faulting hlo hhi hx), hdrawn, complete_eq]
    rfl

/-! ### The hash overwrites its context -/

/-- `c` with other words where a hash writes its outputs FM and DG. -/
def Ctx.withOutputs (fm dg : Vector Word 8) (c : Ctx) : Ctx := { c with fm := fm, dg := dg }

/-- A run of bodies that each leave a change of the context as it is leaves it as it is. -/
theorem foldlM_map_comm {α : Type} {f : Ctx → α → Option Ctx} {g : Ctx → Ctx}
    (h : ∀ c a, f (g c) a = (f c a).map g) (as : List α) (c : Ctx) :
    as.foldlM f (g c) = (as.foldlM f c).map g := by
  induction as generalizing c with
  | nil => rfl
  | cons a as ih =>
    rw [List.foldlM_cons, List.foldlM_cons, h]
    cases f c a with
    | none => rfl
    | some c' => exact ih c'

section
variable (env : HashEnv) (arg : BitVec 16) (fm dg : Vector Word 8) (c : Ctx)

theorem dagMix_withOutputs :
    (c.withOutputs fm dg).dagMix env arg = (c.dagMix env arg).map (Ctx.withOutputs fm dg) := by
  have hidx : (c.withOutputs fm dg).dagIndex env.items (laneOf (argWord arg)) =
      c.dagIndex env.items (laneOf (argWord arg)) := rfl
  rw [Ctx.dagMix, Ctx.dagMix, hidx]
  cases env.item (c.dagIndex env.items (laneOf (argWord arg))) <;> rfl

theorem cacheMix_withOutputs (combine : KissCombine) (cache : Vector Word 4096) :
    (c.withOutputs fm dg).cacheMix combine cache = (c.cacheMix combine cache).withOutputs fm dg := rfl

theorem mathMix_withOutputs (combine : KissCombine) :
    (c.withOutputs fm dg).mathMix combine = (c.mathMix combine).withOutputs fm dg := rfl

/-- A loop iteration neither reads nor writes FM and DG (43_mix.md R198). -/
theorem loopIter_withOutputs :
    (c.withOutputs fm dg).loopIter env arg = (c.loopIter env arg).map (Ctx.withOutputs fm dg) := by
  have hcache : Function.Commute ((Ctx.cacheMix env.params.kissCombine env.cache)^[11])
      (Ctx.withOutputs fm dg) := Function.Commute.iterate_left (cacheMix_withOutputs fm dg · _ _) 11
  have hmath : Function.Commute ((Ctx.mathMix env.params.kissCombine)^[18])
      (Ctx.withOutputs fm dg) := Function.Commute.iterate_left (mathMix_withOutputs fm dg · _) 18
  have hseed : (c.withOutputs fm dg).mixReduce.loopSeed arg =
      (c.mixReduce.loopSeed arg).withOutputs fm dg := rfl
  simp only [Ctx.loopIter]
  rw [hseed, hcache.eq, hmath.eq, foldlM_map_comm fun c i => dagMix_withOutputs env _ fm dg c,
    Option.map_map, Option.map_map]
  rfl

/-- A loop iteration overwrites MX and LOOP_IDX before it reads them (43_mix.md R198). -/
theorem loopIter_mx_loopIdx (mx : Vector Word 16) (loopIdx : Word) :
    Ctx.loopIter env arg { c with mx := mx, loopIdx := loopIdx } = c.loopIter env arg := rfl

end

/-- The state of a hash as its loop iterations begin: what SEED_ABSORB to MIX_FILL leave (R232). -/
def Ctx.hashSetup (env : HashEnv) (header : Vector Word 8) (nonceLo nonceHi : Word) (c : Ctx) : Ctx :=
  (((c.seedAbsorb header nonceLo nonceHi).permute env.params.rcTable).seedExtract).mixFill
    env.params.kissCombine

/-- What a hash does with the context its loop iterations leave (R232). -/
def Ctx.hashFinish (env : HashEnv) (c : Ctx) : Ctx :=
  (c.finalReduce.finalAbsorb.permute env.params.rcTable).digestExtract

/-- A hash's loop iterations (R232). -/
def Ctx.hashLoop (env : HashEnv) (c : Ctx) : Option Ctx :=
  (List.range 64).foldlM (fun c j => c.loopIter env (BitVec.ofNat 16 j)) c

section
variable (env : HashEnv) (header : Vector Word 8) (nonceLo nonceHi : Word) (c : Ctx)

theorem runHash_eq :
    c.runHash env header nonceLo nonceHi =
      ((c.hashSetup env header nonceLo nonceHi).hashLoop env).map (Ctx.hashFinish env) := rfl

/-- Up to the loop a hash keeps of its starting context MX, LOOP_IDX, FM and DG only (R232). -/
theorem hashSetup_eq (c' : Ctx) :
    c'.hashSetup env header nonceLo nonceHi =
      Ctx.withOutputs c'.fm c'.dg { c.hashSetup env header nonceLo nonceHi with
        mx := c'.mx, loopIdx := c'.loopIdx } := rfl

theorem hashLoop_withOutputs (fm dg : Vector Word 8) :
    (c.withOutputs fm dg).hashLoop env = (c.hashLoop env).map (Ctx.withOutputs fm dg) :=
  foldlM_map_comm (fun c j => loopIter_withOutputs env (BitVec.ofNat 16 j) fm dg c) _ c

theorem hashLoop_mx_loopIdx (mx : Vector Word 16) (loopIdx : Word) :
    Ctx.hashLoop env { c with mx := mx, loopIdx := loopIdx } = c.hashLoop env := by
  rw [Ctx.hashLoop, Ctx.hashLoop, List.range_succ_eq_map, List.foldlM_cons, List.foldlM_cons,
    loopIter_mx_loopIdx]

/-- The end of a hash overwrites FM and DG (R232). -/
theorem hashFinish_withOutputs (fm dg : Vector Word 8) :
    (c.withOutputs fm dg).hashFinish env = c.hashFinish env := rfl

end

/-- Settles O31: the two contexts differ in MX and LOOP_IDX, which the first loop iteration overwrites, and in
FM and DG, which no iteration reads and the end overwrites. -/
theorem hashIgnoresStartingContext : Obligations.HashIgnoresStartingContext := by
  intro env header lo hi c c'
  rw [runHash_eq, runHash_eq, hashSetup_eq env header lo hi c c', hashLoop_withOutputs,
    hashLoop_mx_loopIdx, Option.map_map]
  exact congrArg (Option.map · _) (funext fun c => (hashFinish_withOutputs env c _ _).symm)

/-! ### HASH as program P3 -/

theorem validWord_eq (dg tg : Vector Word 8) :
    validWord dg tg = if wordsNat dg ≤ wordsNat tg then 1 else 0 := by
  simp [validWord, digestValid]

/-- `s` after a whole hash that left context `c`, compared with TARGET (R233). -/
def State.ranHash (s : State) (c : Ctx) : State :=
  { s.ranTo c with res := validWord c.dg s.target }

theorem exec_targetCmp (s : State) :
    exec .targetCmp s = .next { s with
      res := validWord s.ctx.dg s.target, engine := .idle, done := true, err := .none } :=
  finishRes_eq _ s

section
variable {s : State}

theorem exec_hash {words : Vector Word 4096} {c : Ctx} (hok : s.dagCfgOK = true)
    (hp : s.preload = some words)
    (hc : s.ctx.runHash (s.loadCache words).hashEnv s.header s.nonceLo s.nonceHi = some c) :
    exec .hash s = .next ((s.loadCache words).ranHash c) := by
  have hloaded : hashLoaded (s.loadCache words) = .next ((s.loadCache words).ranHash c) := by
    simp only [hashLoaded, State.loadCache_ctx, State.loadCache_header, State.loadCache_nonceLo,
      State.loadCache_nonceHi, hc]
    exact congrArg Host.Outcome.next (complete_none_eq _)
  rw [exec, execHash, requireDag_ok hok, hp]
  exact hloaded

/-- What the commands before the loop leave (R232, R312). -/
theorem execAll_hashSetup (s : State) (c : Ctx) :
    execAll [.seedAbsorb, .keccakF800, .seedExtract, .mixFill] (s.ranTo c) =
      .next (s.ranTo (c.hashSetup s.hashEnv s.header s.nonceLo s.nonceHi)) := by
  rw [execAll_cons (exec_seedAbsorb _), execAll_cons (exec_keccakF800 _),
    execAll_cons (exec_seedExtract _), execAll_cons (exec_mixFill _)]
  rfl

/-- What the loop iterations leave (R232, R312). -/
theorem execAll_hashLoop (hok : s.dagCfgOK = true) (hv : s.cacheValid = true) {c c' : Ctx}
    (hc : c.hashLoop s.hashEnv = some c') :
    execAll ((List.range 64).map fun j => .loopIter (BitVec.ofNat 16 j)) (s.ranTo c) =
      .next (s.ranTo c') :=
  execAll_map (fun _ c _ h => exec_loopIter ((ranTo_dagCfgOK s c).trans hok)
    ((ranTo_cacheValid s c).trans hv) h) _ hc

/-- What the commands after the loop leave (R232, R312). -/
theorem execAll_hashFinish (s : State) (c : Ctx) :
    execAll [.finalReduce, .finalAbsorb, .keccakF800, .digestExtract, .targetCmp] (s.ranTo c) =
      .next (s.ranHash (c.hashFinish s.hashEnv)) := by
  rw [execAll_cons (exec_finalReduce _), execAll_cons (exec_finalAbsorb _),
    execAll_cons (exec_keccakF800 _), execAll_cons (exec_digestExtract _),
    execAll_cons (exec_targetCmp _)]
  rfl

/-- Program P3's commands, run one by one, leave what HASH leaves (R233, R312). -/
theorem execAll_hashCommands {words : Vector Word 4096} {c : Ctx} (hok : s.dagCfgOK = true)
    (hp : s.preload = some words)
    (hc : s.ctx.runHash (s.loadCache words).hashEnv s.header s.nonceLo s.nonceHi = some c) :
    execAll hashCommands s = .next ((s.loadCache words).ranHash c) := by
  rw [runHash_eq] at hc
  obtain ⟨c₁, hc₁, rfl⟩ := Option.map_eq_some_iff.1 hc
  have hload : exec .cacheLoad s = .next ((s.loadCache words).ranTo s.ctx) :=
    (exec_cacheLoad hok hp).trans (congrArg Host.Outcome.next (complete_none_eq _))
  have hsetup := (execAll_cons hload _).trans (execAll_hashSetup (s.loadCache words) s.ctx)
  have hloop := (execAll_append hsetup _).trans
    (execAll_hashLoop (s := s.loadCache words) hok rfl hc₁)
  exact (execAll_append hloop _).trans (execAll_hashFinish (s.loadCache words) c₁)

/-- On a readable DAG the hash gives a context (R232). -/
theorem runHash_readable (hok : s.dagCfgOK = true) (hclear : s.dagClear) :
    ∃ c, s.ctx.runHash (s.loadCache s.dagHead).hashEnv s.header s.nonceLo s.nonceHi = some c ∧
      c.loopIdx = 63 :=
  runHash_some (env := (s.loadCache s.dagHead).hashEnv)
    (Nat.lt_of_lt_of_le (by decide) (dagItems_pos hok))
    (hashEnv_item_clear (s := s.loadCache s.dagHead) hclear) s.header s.nonceLo s.nonceHi s.ctx

end

/-- Settles O30: on a readable DAG the hash gives a context (`runHash_readable`), which both HASH and program
P3 leave. -/
theorem hashEqualsStepByStepProgram : Obligations.HashEqualsStepByStepProgram := by
  intro s hok hclear
  obtain ⟨c, hc, hidx⟩ := runHash_readable hok hclear
  have hp : s.preload = some s.dagHead := preload_clear hok hclear
  have hexec := exec_hash hok hp hc
  refine ⟨c, s.dagHead, hidx, ?_, (execAll_hashCommands hok hp hc).trans hexec.symm⟩
  rw [hexec, State.ranHash, validWord_eq]
  rfl

/-- Settles O32: a search thread runs the same hash from a context of zeros, and where a hash starts from does
not matter (`hashIgnoresStartingContext`). -/
theorem hashAgreesWithSearchHash : Obligations.HashAgreesWithSearchHash := by
  intro s hok hclear
  obtain ⟨c, hc, -⟩ := runHash_readable hok hclear
  refine ⟨(s.loadCache s.dagHead).ranHash c, exec_hash hok (preload_clear hok hclear) hc, ?_⟩
  have henv : ((s.loadCache s.dagHead).ranHash c).hashEnv = (s.loadCache s.dagHead).hashEnv := rfl
  rw [hashIgnoresStartingContext _ _ _ _ _ Ctx.zero] at hc
  rw [kawHash, State.nonce, lo32_pair, hi32_pair, henv, hc]
  rfl

/-! ### The comparison -/

/-- The number whose `n` digits to base `B` are `a`, digit 0 least significant. -/
def digitSum (B : Nat) {n : Nat} (a : Fin n → Nat) : Nat := ∑ i, a i * B ^ i.val

section
variable {B n : Nat}

theorem digitSum_castSucc (a : Fin (n + 1) → Nat) :
    digitSum B a = digitSum B (fun i => a i.castSucc) + a (Fin.last n) * B ^ n :=
  Fin.sum_univ_castSucc _

theorem digitSum_lt (a : Fin n → Nat) (h : ∀ i, a i < B) : digitSum B a < B ^ n := by
  induction n with
  | zero => simp [digitSum]
  | succ n ih =>
    have hlow := ih (fun i => a i.castSucc) fun i => h i.castSucc
    calc digitSum B a
        = digitSum B (fun i => a i.castSucc) + a (Fin.last n) * B ^ n := digitSum_castSucc a
      _ < B ^ n + a (Fin.last n) * B ^ n := by omega
      _ = (a (Fin.last n) + 1) * B ^ n := by ring
      _ ≤ B * B ^ n := Nat.mul_le_mul_right _ (h (Fin.last n))
      _ = B ^ (n + 1) := by ring

/-- With low parts below the unit `P`, the high digits decide, and the low parts when those agree. -/
theorem add_mul_le_iff {P x y a b : Nat} (hx : x < P) (hy : y < P) :
    x + a * P ≤ y + b * P ↔ a < b ∨ a = b ∧ x ≤ y := by
  rcases lt_trichotomy a b with h | rfl | h
  · have := Nat.mul_le_mul_right P h
    rw [Nat.succ_mul] at this
    omega
  · omega
  · have := Nat.mul_le_mul_right P h
    rw [Nat.succ_mul] at this
    omega

/-- One number does not exceed another exactly when their digits agree or the most significant digit in which
they differ is smaller (R234). -/
theorem digitSum_le_iff {a b : Fin n → Nat} (ha : ∀ i, a i < B) (hb : ∀ i, b i < B) :
    digitSum B a ≤ digitSum B b ↔ a = b ∨ ∃ i, a i < b i ∧ ∀ j, i < j → a j = b j := by
  induction n with
  | zero => simp [digitSum, Subsingleton.elim a b]
  | succ n ih =>
    rw [digitSum_castSucc, digitSum_castSucc,
      add_mul_le_iff (digitSum_lt _ fun i => ha i.castSucc) (digitSum_lt _ fun i => hb i.castSucc),
      ih (fun i => ha i.castSucc) fun i => hb i.castSucc]
    constructor
    · rintro (htop | ⟨htop, hlow | ⟨i, hi, hj⟩⟩)
      · exact .inr ⟨Fin.last n, htop, fun j hj => absurd hj (Fin.le_last j).not_gt⟩
      · exact .inl (funext fun i => Fin.lastCases htop (fun i => congrFun hlow i) i)
      · refine .inr ⟨i.castSucc, hi, fun j => Fin.lastCases (fun _ => htop) (fun j hij => ?_) j⟩
        exact hj j (Fin.castSucc_lt_castSucc_iff.1 hij)
    · rintro (rfl | ⟨i, hi, hj⟩)
      · exact .inr ⟨rfl, .inl rfl⟩
      · cases i using Fin.lastCases with
        | last => exact .inl hi
        | cast i =>
          exact .inr ⟨hj _ (Fin.castSucc_lt_last i), .inr ⟨i, hi, fun j hij =>
            hj _ (Fin.castSucc_lt_castSucc_iff.2 hij)⟩⟩

end

/-- Folding words from the most significant one down gives their integer. -/
theorem foldr_ofFn_eq_digitSum (B : Nat) {n : Nat} (a : Fin n → Word) :
    (List.ofFn a).foldr (fun w acc => w.toNat + B * acc) 0 = digitSum B fun i => (a i).toNat := by
  induction n with
  | zero => rfl
  | succ n ih =>
    rw [List.ofFn_succ, List.foldr_cons, ih, digitSum, digitSum, Fin.sum_univ_succ, Finset.mul_sum]
    refine congrArg₂ (· + ·) (by simp) (Finset.sum_congr rfl fun i _ => ?_)
    rw [Fin.val_succ, pow_succ]
    ring

/-- The integer of 8 words is the number whose digits to base 2^32 they are (R234, 20_memory.md R81). -/
theorem wordsNat_eq_digitSum (v : Vector Word 8) :
    wordsNat v = digitSum (2 ^ 32) fun i : Fin 8 => v[i].toNat := by
  have hlist : v.toList = List.ofFn fun i : Fin 8 => v[i.val] := by
    rw [← Vector.toList_ofFn, Vector.ofFn_getElem]
  rw [wordsNat, hlist, foldr_ofFn_eq_digitSum]
  rfl

theorem digitSum_words (v : Vector Word 8) :
    ∑ i : Fin 8, v[i].toNat * 2 ^ (32 * i.val) = digitSum (2 ^ 32) fun i : Fin 8 => v[i].toNat := by
  simp only [digitSum, pow_mul]

theorem toNat_words_inj {v w : Vector Word 8} :
    ((fun i : Fin 8 => v[i].toNat) = fun i : Fin 8 => w[i].toNat) ↔ v = w := by
  refine ⟨fun h => Vector.ext fun i hi => ?_, fun h => by rw [h]⟩
  exact BitVec.eq_of_toNat_eq (congrFun h ⟨i, hi⟩)

/-- The first differing word from index 7 down decides (R234). -/
theorem wordsNat_le_iff (dg tg : Vector Word 8) :
    wordsNat dg ≤ wordsNat tg ↔ dg = tg ∨ ∃ i : Fin 8, dg[i].toNat < tg[i].toNat ∧
      ∀ j : Fin 8, i < j → dg[j] = tg[j] := by
  rw [wordsNat_eq_digitSum, wordsNat_eq_digitSum,
    digitSum_le_iff (fun i => dg[i].isLt) fun i => tg[i].isLt, toNat_words_inj]
  simp only [BitVec.toNat_inj]

theorem validWord_eq_one_iff (dg tg : Vector Word 8) :
    validWord dg tg = 1 ↔ wordsNat dg ≤ wordsNat tg := by
  rw [validWord_eq]
  split <;> simp [*]

/-- Settles O33: RES is 1 exactly when the digest's integer does not exceed the target's, and the first
differing digit decides that (`wordsNat_le_iff`). -/
theorem targetCmpComparesIntegers : Obligations.TargetCmpComparesIntegers := by
  refine ⟨selects_of_fields rfl rfl rfl rfl, fun s =>
    ⟨validWord s.ctx.dg s.target, ite_eq_or_eq _ _ _, ?_, ?_, exec_targetCmp s⟩⟩
  · rw [validWord_eq_one_iff, digitSum_words, digitSum_words, wordsNat_eq_digitSum,
      wordsNat_eq_digitSum]
  · rw [validWord_eq_one_iff, wordsNat_le_iff]

end Sys2Proof.Machine
end

section
/-! PROOFS. How a SEARCH starts and what its threads do (44_search.md R236 to R241): the records it makes, the
thread an engine event steps, a thread's step by its nonce, and the one commit. -/

namespace Sys2Proof.Machine

/-! ### The start -/

/-- ABORT_REQ starts set exactly when CTRL.ABORT came since the acceptance (log 9). -/
theorem abortPending_eq (e : Engine) : e.abortPending = decide (e = .accepted true) := by
  cases e <;> simp [Engine.abortPending]

theorem newSearch_flag {s : State} {g : Nat} (h : g < groupCount s.threads.toNat s.params.groupSize) :
    s.newSearch.gf[g]? = some false := by
  rw [State.newSearch, List.getElem?_replicate, if_pos h]

section
variable {s : State}

theorem exec_search_config (h : s.dagCfgOK = false) :
    exec .search s = .next (s.complete .config) := requireDag_bad h

theorem exec_search {words : Vector Word 4096} (hok : s.dagCfgOK = true) (hp : s.preload = some words) :
    exec .search s = .next ((s.clearFound.loadCache words).setEngine (.searching s.newSearch)) := by
  rw [exec, execSearch, requireDag_ok hok, hp]

theorem exec_search_fault (hok : s.dagCfgOK = true) (hp : s.preload = none) :
    exec .search s = .next (s.clearFound.dropCache.setEngine
      (.searching { s.newSearch with memErr := true })) := by
  rw [exec, execSearch, requireDag_ok hok, hp]

end

/-- Settles O35: the check, then the records, with MEMERR as the preload leaves it. -/
theorem searchStartsItsThreads : Obligations.SearchStartsItsThreads := by
  refine ⟨selects_of_fields rfl rfl rfl rfl, fun s => ⟨fun hbad => ?_, fun hok => ?_⟩⟩
  · rw [exec_search_config hbad, complete_eq]
  refine ⟨{ s.newSearch with memErr := s.preload.isNone }, rfl, fun _ => newSearch_flag,
    abortPending_eq _, fun hclear => ?_, fun x hlo hhi hx => ?_⟩
  · have hp := preload_readable hclear
    refine ⟨s.dagHead, dagHead_getElem s, congrArg Option.isNone hp, ?_⟩
    rw [exec_search hok hp, hp]
    rfl
  · have hp := preload_faulting hlo hhi hx
    refine ⟨congrArg Option.isNone hp, ?_⟩
    rw [exec_search_fault hok hp, hp]
    rfl

/-! ### The next thread -/

theorem step_engineEvent {s : State} {choice : Nat} {rest : List Event} {r : Search}
    (hr : s.engine = .searching r) :
    step { s with inputs := .engine choice :: rest } = searchStep choice r { s with inputs := rest } := by
  simp only [step, act, engineStep, State.popInput, hr]

/-- Settles O36: the event whose choice is the thread's place among the live ones (`searchStep_choice`). -/
theorem everyLiveThreadCanStepNext : Obligations.EveryLiveThreadCanStepNext := by
  intro s r t hr hlive
  obtain ⟨choice, hchoice⟩ := searchStep_choice hlive
  exact ⟨choice, fun rest => (step_engineEvent hr).trans (hchoice _)⟩

/-! ### One thread's step -/

/-- A thread must exit after its group's hit, an abort or a fault (R239). -/
theorem exits_iff (r : Search) (g : Nat) :
    r.exits g = true ↔ r.gf[g]? = some true ∨ r.abortReq = true ∨ r.memErr = true := by
  rw [Search.exits, List.getD_eq_getElem?_getD]
  cases r.gf[g]? <;> simp [or_assoc]

/-- `n(t, k)` as a number (R237). -/
theorem nonceOf_toNat (s : State) (t k : Nat) :
    (s.nonceOf t k).toNat = (s.startNonce.toNat + t * s.npt.toNat + k) % 2 ^ 64 := by
  simp [State.nonceOf, BitVec.toNat_add, Nat.add_assoc]

section
variable {s : State} {r : Search} {t : Nat}

theorem threadStep_exit (h : r.exits (t / s.params.groupSize) = true) :
    threadStep t r s = s.setEngine (.searching (r.retire t)) :=
  if_pos (.inl h)

/-- A thread that need not exit and has a nonce left hashes it (R239). -/
theorem threadStep_hash (h : r.exits (t / s.params.groupSize) = false)
    (hk : (r.thread t).k < s.npt.toNat) : threadStep t r s = hashStep t r s :=
  if_neg (by simp [h, hk])

theorem hashStep_fault (h : kawHash s.hashEnv s.header (s.nonceOf t (r.thread t).k) = none) :
    hashStep t r s = s.setEngine (.searching { r.retire t with memErr := true }) := by
  simp only [hashStep, h]

variable {dg fm : Vector Word 8}
  (h : kawHash s.hashEnv s.header (s.nonceOf t (r.thread t).k) = some (dg, fm))
include h

theorem hashStep_hit (hhit : isHit (s.nonceOf t (r.thread t).k) dg s.target = true) :
    hashStep t r s = (s.commit (s.nonceOf t (r.thread t).k) dg fm).setEngine
      (.searching { r.retire t with gf := r.gf.set (t / s.params.groupSize) true }) := by
  simp only [hashStep, h, hhit, if_true]

theorem hashStep_miss (hmiss : isHit (s.nonceOf t (r.thread t).k) dg s.target = false) :
    hashStep t r s = s.setEngine (.searching (r.advance s.npt.toNat t)) := by
  simp only [hashStep, h, hmiss]
  rfl

end

theorem isHit_iff (n : DWord) (dg tg : Vector Word 8) :
    isHit n dg tg = true ↔ wordsNat dg ≤ wordsNat tg ∧ n ≠ 0 := by
  simp [isHit, digestValid]

/-- Settles O37: the exit, or the hash of the thread's nonce and its three outcomes. -/
theorem threadStepFollowsItsNonce : Obligations.ThreadStepFollowsItsNonce := by
  intro s r t _ _ hlt g k n hg hk hn
  obtain rfl : n = s.nonceOf t k := BitVec.eq_of_toNat_eq (hn.trans (nonceOf_toNat s t k).symm)
  subst hg hk
  refine ⟨fun hexit => threadStep_exit ((exits_iff _ _).2 hexit), fun hflag habort hmem => ?_⟩
  have hstay : r.exits (t / s.params.groupSize) = false := by
    rw [Bool.eq_false_iff, Ne, exits_iff]
    simp [hflag, habort, hmem]
  rw [threadStep_hash hstay hlt]
  refine ⟨hashStep_fault, fun dg fm hhash => ⟨fun hhit => ?_, fun hmiss => ?_⟩⟩
  · exact hashStep_hit hhash ((isHit_iff _ _ _).2 hhit)
  · exact hashStep_miss hhash (Bool.eq_false_iff.2 fun h => hmiss ((isHit_iff _ _ _).1 h))

/-! ### The commit -/

theorem rnonce_eq_zero_iff (s : State) : s.rnonce = 0 ↔ s.rnonceLo = 0 ∧ s.rnonceHi = 0 := by
  constructor
  · intro h
    exact ⟨(lo32_pair s.rnonceHi s.rnonceLo).symm.trans (congrArg lo32 h),
      (hi32_pair s.rnonceHi s.rnonceLo).symm.trans (congrArg hi32 h)⟩
  · rintro ⟨hlo, hhi⟩
    rw [State.rnonce, hlo, hhi]
    rfl

/-- Settles O38: a commit acts while RNONCE is 0 only, and from there puts its nonce in RNONCE. -/
theorem commitWritesOnceFromZero : Obligations.CommitWritesOnceFromZero := by
  refine fun s n dg fm => ⟨fun hlo hhi => ?_, fun hne => ?_, fun hn n' dg' fm' => ?_⟩
  · have hzero := (rnonce_eq_zero_iff s).2 ⟨hlo, hhi⟩
    exact ⟨commit_rnonce hzero n dg fm, by rw [commit_of_rnonce_zero hzero]⟩
  · refine commit_of_rnonce_ne (fun hzero => ?_) n dg fm
    obtain ⟨hlo, hhi⟩ := (rnonce_eq_zero_iff s).1 hzero
    exact hne.elim (absurd hlo) (absurd hhi)
  · refine commit_of_rnonce_ne ?_ n' dg' fm'
    by_cases hzero : s.rnonce = 0
    · rwa [commit_rnonce hzero]
    · rwa [commit_of_rnonce_ne hzero]

end Sys2Proof.Machine
end

section
/-! PROOFS. The engine steps of a running SEARCH (44_search.md R238 to R246): what they leave alone, the result
they keep, how the SEARCH completes, and the work each of them takes off it. -/

namespace Sys2Proof.Machine

/-! ### What an engine step can change -/

/-- `t` is `s` but for the fields an engine step of a SEARCH may change (R246). -/
def ChangesSearchFields (s t : State) : Prop :=
  t = { s with
    engine := t.engine, done := t.done, err := t.err, sticky := t.sticky, found := t.found,
    rnonceLo := t.rnonceLo, rnonceHi := t.rnonceHi, rhash := t.rhash, rmix := t.rmix,
    cache := t.cache, cacheValid := t.cacheValid, fresh := t.fresh }

theorem inputs_of_changes {s t : State} (h : ChangesSearchFields s t) : t.inputs = s.inputs := by
  rw [h]

theorem npt_of_changes {s t : State} (h : ChangesSearchFields s t) : t.npt = s.npt := by
  rw [h]

theorem threadStep_changes (t : Nat) (r : Search) (s : State) :
    ChangesSearchFields s (threadStep t r s) := by
  rcases threadStep_cases t r s with h | ⟨-, -, h⟩ | ⟨dg, fm, -, -, -, h⟩ | ⟨-, -, -, -, -, h⟩ <;>
    rw [h]
  case inr.inr.inl =>
    rw [commit_eq]
    rfl
  all_goals rfl

/-- `s` as the SEARCH completes: with E_MEM its fault set drawn (60_exceptions.md R277). -/
def State.searchEnd (s : State) (r : Search) : State :=
  if r.memErr then s.clobber s.searchFaultSet else s

theorem searchEnd_of_noFault {r : Search} (h : r.memErr = false) (s : State) : s.searchEnd r = s := by
  simp [State.searchEnd, h]

theorem searchEnd_of_fault {r : Search} (h : r.memErr = true) (s : State) :
    s.searchEnd r = s.clobber s.searchFaultSet := by
  simp [State.searchEnd, h]

theorem finishSearch_searchEnd (r : Search) (s : State) :
    finishSearch r s = .next ((s.searchEnd r).complete r.outcome) :=
  finishSearch_eq r s

/-- Everything the draws of an E_MEM can change (R246). -/
theorem searchEnd_eq (s : State) (r : Search) :
    s.searchEnd r = { s with
      rnonceLo := (s.searchEnd r).rnonceLo, rnonceHi := (s.searchEnd r).rnonceHi,
      rhash := (s.searchEnd r).rhash, rmix := (s.searchEnd r).rmix,
      cache := (s.searchEnd r).cache, fresh := (s.searchEnd r).fresh } := by
  cases h : r.memErr with
  | false => rw [searchEnd_of_noFault h]
  | true =>
    rw [searchEnd_of_fault h]
    exact clobber_searchFaultSet_eq s

/-- Without a fault, or after a commit, completion keeps the result (R243, 60_exceptions.md R277). -/
theorem searchEnd_slot {s : State} {r : Search} (h : r.memErr = false ∨ s.found = true) :
    (s.searchEnd r).rnonce = s.rnonce ∧ (s.searchEnd r).rhash = s.rhash ∧
      (s.searchEnd r).rmix = s.rmix := by
  cases hm : r.memErr with
  | false =>
    rw [searchEnd_of_noFault hm]
    exact ⟨rfl, rfl, rfl⟩
  | true =>
    rw [searchEnd_of_fault hm]
    exact clobber_committed (h.resolve_left (by simp [hm]))

theorem searchEnd_rnonce_zero {s : State} (r : Search) (h : s.rnonce = 0) :
    (s.searchEnd r).rnonce = 0 := by
  cases hm : r.memErr with
  | false => rwa [searchEnd_of_noFault hm]
  | true =>
    rw [searchEnd_of_fault hm]
    exact clobber_rnonce_zero h

theorem searchEnd_found (s : State) (r : Search) : (s.searchEnd r).found = s.found := by
  rw [searchEnd_eq]

theorem searchEnd_complete_changes (s : State) (r : Search) :
    ChangesSearchFields s ((s.searchEnd r).complete r.outcome) := by
  rw [searchEnd_eq]
  rfl

theorem searchStep_changes {choice : Nat} {r : Search} {s t : State}
    (h : searchStep choice r s = .next t) : ChangesSearchFields s t := by
  rcases searchStep_cases choice r s with ⟨-, hs⟩ | ⟨u, -, hs⟩ <;> rw [hs] at h
  · rw [finishSearch_searchEnd] at h
    cases h
    exact searchEnd_complete_changes s r
  · cases h
    exact threadStep_changes u r s

/-- `s` past its next event, with `n` the next free value (log 4, 6). -/
def State.pastEvent (s : State) (n : Nat) : State := { s with inputs := s.inputs.tail, fresh := n }

/-- An engine step of a running SEARCH is `searchStep` past the consumed event, with some choice (R238). -/
theorem step_of_searching {s : State} {r : Search} (hr : s.engine = .searching r)
    (hnext : s.engineNext) :
    ∃ choice n, step s = searchStep choice r (s.pastEvent n) := by
  obtain ⟨choice, hs⟩ := step_engine hnext
  rcases engineStep_cases choice (s.popInput s.inputs.tail) with
    ⟨he, -⟩ | ⟨_, _, he, -, -⟩ | ⟨_, _, he, -, -⟩ | ⟨r', he, c, n, hstep⟩ <;>
    cases hr.symm.trans he
  exact ⟨c, n, hs.trans hstep⟩

/-! ### What SEARCH leaves alone -/

/-- The states agree on the direct context, RES, NONCE and SEARCH's operands (R246). -/
def SameOperands (s t : State) : Prop :=
  t.ctx = s.ctx ∧ t.res = s.res ∧ t.nonce = s.nonce ∧ t.header = s.header ∧ t.target = s.target ∧
    t.startNonce = s.startNonce ∧ t.threads = s.threads ∧ t.npt = s.npt ∧ t.dagBase = s.dagBase ∧
    t.dagSize = s.dagSize

theorem sameOperands_of_changes {s t : State} (h : ChangesSearchFields s t) : SameOperands s t := by
  rw [h]
  exact ⟨rfl, rfl, rfl, rfl, rfl, rfl, rfl, rfl, rfl, rfl⟩

theorem execSearch_sameOperands {s t : State} (h : exec .search s = .next t) : SameOperands s t := by
  cases hok : s.dagCfgOK with
  | false =>
    rw [exec_search_config hok] at h
    cases h
    exact sameOperands_of_changes rfl
  | true =>
    cases hp : s.preload with
    | none =>
      rw [exec_search_fault hok hp] at h
      cases h
      exact sameOperands_of_changes rfl
    | some words =>
      rw [exec_search hok hp] at h
      cases h
      exact sameOperands_of_changes rfl

/-- Settles O43: neither SEARCH's first step nor a thread's step nor the completion writes those registers. -/
theorem searchLeavesDirectContext : Obligations.SearchLeavesDirectContext := by
  refine ⟨fun s t => execSearch_sameOperands, fun s t r hr hnext h => ?_⟩
  obtain ⟨choice, n, hs⟩ := step_of_searching hr hnext
  exact sameOperands_of_changes (s := s.pastEvent n) (searchStep_changes (hs.symm.trans h))

/-! ### Completion -/

/-- Settles O42: with no live thread the step is the completion, whose draws after E_MEM spare a commit and an
RNONCE of 0 (`searchEnd_slot`, `searchEnd_rnonce_zero`). -/
theorem searchCompletesWithOutcome : Obligations.SearchCompletesWithOutcome := by
  intro s r hr hnext hdone
  obtain ⟨choice, n, hs⟩ := step_of_searching hr hnext
  rw [searchStep_done hdone, finishSearch_searchEnd] at hs
  refine ⟨_, hs, ?_, searchEnd_slot (s := s.pastEvent n), searchEnd_rnonce_zero (s := s.pastEvent n) r,
    fun hm => ?_⟩
  · rw [complete_eq, searchEnd_eq]
    rfl
  · rw [searchEnd_of_noFault hm]
    rfl

/-! ### The result -/

/-- A thread's step changes the result slot by a commit only, which needs RNONCE = 0, a thread and a nonce
(R239, R240). -/
theorem threadStep_sameSlot {s : State} {r : Search} {t : Nat} (hlive : (r.thread t).live = true)
    (h : s.rnonce ≠ 0 ∨ Search.wf s r ∧ s.threads = 0 ∨ s.npt = 0) :
    SameSlot s (threadStep t r s) := by
  rcases threadStep_cases t r s with hs | ⟨-, -, hs⟩ | ⟨dg, fm, hlt, -, -, hs⟩ | ⟨-, -, -, -, -, hs⟩ <;>
    rw [hs]
  case inr.inr.inl =>
    have hne : s.rnonce ≠ 0 := by
      rcases h with hne | ⟨⟨hthr, -⟩, hzero⟩ | hzero
      · exact hne
      · have ht := lt_of_live hlive
        rw [hthr, hzero] at ht
        exact absurd ht (Nat.not_lt_zero t)
      · rw [hzero] at hlt
        exact absurd hlt (Nat.not_lt_zero _)
    rw [commit_of_rnonce_ne hne]
    exact ⟨rfl, rfl, rfl, rfl⟩
  all_goals exact ⟨rfl, rfl, rfl, rfl⟩

/-- A host write during a SEARCH leaves the result slot alone (10_state.md R53). -/
theorem writeRegister_sameSlot {s : State} {r : Search} (hr : s.engine = .searching r) (q : Reg)
    (v : Word) : SameSlot s (s.writeRegister q v) := by
  rcases writeRegister_cases s q v with ⟨-, h⟩ | ⟨-, -, h⟩ | ⟨-, hidle, -⟩ | ⟨-, -, hidle, -⟩
  · rw [h, ctrlWrite_eq]
    exact ⟨rfl, rfl, rfl, rfl⟩
  · rw [h]
    exact ⟨rfl, rfl, rfl, rfl⟩
  all_goals cases hr.symm.trans hidle

/-- A step during a SEARCH is the engine's, a reset, or leaves the result slot alone (R244). -/
theorem step_sameSlot {s t : State} {r : Search} (hr : s.engine = .searching r)
    (hreset : ∀ rest, s.inputs ≠ .reset :: rest) (h : step s = .next t) :
    s.engineNext ∨ SameSlot s t := by
  rcases step_cases s with ⟨hnext, -⟩ | ⟨e, rest, hi, hne, hs⟩
  · exact .inl hnext
  right
  rw [hs] at h
  cases e with
  | engine c => exact absurd rfl (hne c)
  | hostRead w a =>
    obtain ⟨o, -, ⟨-, rfl⟩ | ⟨q, -, rfl⟩⟩ := hostRead_next h
    · exact ⟨rfl, rfl, rfl, rfl⟩
    · rw [readRegister_eq]
      exact ⟨rfl, rfl, rfl, rfl⟩
  | hostWrite w a v =>
    obtain ⟨o, -, ⟨-, rfl⟩ | ⟨q, -, rfl⟩⟩ := hostWrite_next h
    · exact ⟨rfl, rfl, rfl, rfl⟩
    · exact writeRegister_sameSlot (s := s.popInput rest) hr q v
  | dagWrite a b =>
    obtain ⟨-, rfl⟩ := dagWrite_next h
    exact ⟨rfl, rfl, rfl, rfl⟩
  | reset => exact absurd hi (hreset rest)

/-- Settles O39: no thread's step commits then (`threadStep_sameSlot`), and a completion draws the slot only
after a fault without a commit. -/
theorem searchKeepsNonzeroResult : Obligations.SearchKeepsNonzeroResult := by
  intro s t r hr hcase hreset h
  have of_sameSlot (hslot : SameSlot s t) : t.found = s.found ∧
      (r.memErr = false ∨ t.engine ≠ .idle ∨ s.found = true →
        t.rnonce = s.rnonce ∧ t.rhash = s.rhash ∧ t.rmix = s.rmix) ∧
      (s.rnonce = 0 → t.rnonce = 0) := by
    obtain ⟨hfound, hrnonce, hrhash, hrmix⟩ := hslot
    exact ⟨hfound, fun _ => ⟨hrnonce, hrhash, hrmix⟩, hrnonce.trans⟩
  rcases step_sameSlot hr hreset h with hnext | hslot
  · obtain ⟨choice, n, hs⟩ := step_of_searching hr hnext
    rw [hs] at h
    rcases searchStep_cases choice r (s.pastEvent n) with
      ⟨-, hstep⟩ | ⟨u, hlive, hstep⟩ <;> rw [hstep] at h
    · rw [finishSearch_searchEnd] at h
      cases h
      refine ⟨searchEnd_found (s.pastEvent n) r, fun hkept => searchEnd_slot (s := s.pastEvent n) ?_,
        searchEnd_rnonce_zero (s := s.pastEvent n) r⟩
      exact hkept.imp_right fun hbusy => hbusy.resolve_left fun hne => hne rfl
    · cases h
      refine of_sameSlot (threadStep_sameSlot hlive ?_)
      exact hcase.imp_right (Or.imp_left fun ⟨⟨_, hsearch⟩, hzero⟩ => ⟨hsearch r hr, hzero⟩)
  · exact of_sameSlot hslot

/-! ### Termination -/

/-- Replacing an entry by one that counts less makes the sum smaller. -/
theorem sum_map_set_lt {α : Type} (f : α → Nat) {as : List α} {i : Nat} (hi : i < as.length) {a : α}
    (ha : f a < f as[i]) : ((as.set i a).map f).sum < (as.map f).sum := by
  induction as generalizing i with
  | nil => cases hi
  | cons b bs ih =>
    cases i with
    | zero => simpa using ha
    | succ i => simpa using ih (Nat.lt_of_succ_lt_succ hi) ha

/-- Replacing a record by one with less work left lowers the work (R315). -/
theorem work_setThread_lt {r : Search} {t npt : Nat} (ht : t < r.thr.length) {th : Thread}
    (h : th.work npt < (r.thread t).work npt) : (r.setThread t th).work npt < r.work npt := by
  refine sum_map_set_lt _ ht ?_
  rwa [Search.thread, List.getD_eq_getElem _ _ ht] at h

theorem work_of_live {th : Thread} (h : th.live = true) (npt : Nat) :
    th.work npt = npt - th.k + 1 := by
  rw [Thread.work, if_pos h]

theorem work_retire_lt {r : Search} {t : Nat} (h : (r.thread t).live = true) (npt : Nat) :
    (r.retire t).work npt < r.work npt := by
  refine work_setThread_lt (lt_of_live h) ?_
  rw [work_of_live h]
  exact Nat.succ_pos _

theorem work_advance_lt {r : Search} {t npt : Nat} (h : (r.thread t).live = true)
    (hk : (r.thread t).k < npt) : (r.advance npt t).work npt < r.work npt := by
  refine work_setThread_lt (lt_of_live h) ?_
  rw [work_of_live h, Thread.work]
  dsimp only
  split <;> omega

/-- A live thread's step leaves the SEARCH running with less work (R238, R315). -/
theorem threadStep_work_lt {r : Search} {t : Nat} (h : (r.thread t).live = true) (s : State) :
    ∃ r', (threadStep t r s).engine = .searching r' ∧ r'.work s.npt.toNat < r.work s.npt.toNat := by
  have hretire := work_retire_lt h s.npt.toNat
  rcases threadStep_cases t r s with
    hs | ⟨-, -, hs⟩ | ⟨dg, fm, -, -, -, hs⟩ | ⟨dg, fm, hlt, -, -, hs⟩ <;> rw [hs]
  · exact ⟨_, rfl, hretire⟩
  · exact ⟨_, rfl, hretire⟩
  · exact ⟨_, rfl, hretire⟩
  · exact ⟨_, rfl, work_advance_lt h hlt⟩

/-- An engine step of a running SEARCH takes its event and completes it or leaves less work (R238). -/
theorem step_searching_progress {s : State} {r : Search} (hr : s.engine = .searching r)
    (hnext : s.engineNext) : ∃ t, step s = .next t ∧ t.inputs = s.inputs.tail ∧
      (t.engine = .idle ∧ t.done = true ∨
        ∃ r', t.engine = .searching r' ∧ r'.work t.npt.toNat < r.work s.npt.toNat) := by
  obtain ⟨choice, n, hs⟩ := step_of_searching hr hnext
  rw [hs]
  rcases searchStep_cases choice r (s.pastEvent n) with
    ⟨-, hstep⟩ | ⟨u, hlive, hstep⟩ <;> rw [hstep]
  · rw [finishSearch_searchEnd]
    exact ⟨_, rfl, inputs_of_changes (searchEnd_complete_changes _ r), .inl ⟨rfl, rfl⟩⟩
  · have hchanges := threadStep_changes u r (s.pastEvent n)
    obtain ⟨r', hr', hlt⟩ := threadStep_work_lt hlive (s.pastEvent n)
    refine ⟨_, rfl, inputs_of_changes hchanges, .inr ⟨r', hr', ?_⟩⟩
    rw [npt_of_changes hchanges]
    exact hlt

theorem engineNext_of_engineOnly {s : State} (h : s.engineOnly) : s.engineNext := by
  cases hi : s.inputs with
  | nil => exact .inl hi
  | cons e rest =>
    obtain ⟨choice, rfl⟩ := h e (by simp [hi])
    exact .inr ⟨choice, rest, hi⟩

theorem stepTimes_succ {s t : State} (h : step s = .next t) (n : Nat) :
    stepTimes (n + 1) s = stepTimes n t := by
  rw [stepTimes, h]

/-- With engine steps alone to come, a SEARCH completes within its work and one more step (R238, R315). -/
theorem search_completes {s : State} {r : Search} (hr : s.engine = .searching r)
    (honly : s.engineOnly) : ∃ n t, n ≤ r.work s.npt.toNat + 1 ∧ stepTimes n s = .next t ∧
      t.engine = .idle ∧ t.done = true := by
  induction hw : r.work s.npt.toNat using Nat.strong_induction_on generalizing s r with
  | _ w ih =>
    obtain ⟨t, hs, hinputs, ⟨hidle, hdone⟩ | ⟨r', hr', hlt⟩⟩ :=
      step_searching_progress hr (engineNext_of_engineOnly honly)
    · exact ⟨1, t, by omega, stepTimes_succ hs 0, hidle, hdone⟩
    · have honly' : t.engineOnly := fun e he => honly e (List.mem_of_mem_tail (hinputs ▸ he))
      obtain ⟨n, u, hn, hu, hend⟩ := ih _ (hw ▸ hlt) hr' honly' rfl
      exact ⟨n + 1, u, by omega, (stepTimes_succ hs n).trans hu, hend⟩

/-- A SEARCH starts with every thread's nonces and one exit step a thread to go (R236, R315). -/
theorem newSearch_work (s : State) :
    s.newSearch.work s.npt.toNat = s.threads.toNat * (s.npt.toNat + 1) := by
  rw [State.newSearch, Search.work, List.map_replicate, List.sum_replicate]
  rfl

/-- Settles O41: each engine step makes progress (`step_searching_progress`), so the SEARCH completes by
induction on the work left. -/
theorem searchTerminates : Obligations.SearchTerminates := by
  refine ⟨fun s r hr hnext => ?_, fun s r => search_completes, newSearch_work⟩
  obtain ⟨t, hs, -, hprogress⟩ := step_searching_progress hr hnext
  exact ⟨t, hs, hprogress⟩

end Sys2Proof.Machine
end

section
/-! PROOFS. What a command can answer and with which outcome code (60_exceptions.md R270 to R277): the acceptance
checks before execution, the DAG fault that ends it, and HASH and LOOP_ITER with the outcome of their commands
run one by one up to the first error. -/

namespace Sys2Proof.Machine

/-! ### What a command can answer -/

/-- `FaultState i s u`: in `u` command `i`, run in `s`, meets a DAG fault: in `s` itself, in a preload, or past
HASH's preload (60_exceptions.md R277). -/
inductive FaultState (i : Instr) (s : State) : State → Prop
  | read (h : (∃ arg, i = .dagMix arg) ∨ ∃ arg, i = .loopIter arg) : FaultState i s s
  | preload (h : i = .cacheLoad ∨ i = .hash) : FaultState i s s.dropCache
  | pastPreload (h : i = .hash) {words : Vector Word 4096} (hp : s.preload = some words) :
      FaultState i s (s.loadCache words)

/-- What command `i` can answer in `s` (60_exceptions.md R272 to R277): it ran, a check ended it before
execution, a DAG fault ended it, or it is a SEARCH that starts. -/
inductive Answer (i : Instr) (s : State) : Outcome → Prop
  | ran (u : State) (h : u.sticky = s.sticky) : Answer i s (.next (u.complete .none))
  | raised {e : Code} (he : mayComplete i e = true) (hm : e ≠ .mem) : Answer i s (.next (s.complete e))
  | faulted {u : State} (hu : FaultState i s u) :
      Answer i s (.next ((u.clobber (writeSet i)).complete .mem))
  | searches (hi : i = .search) (u : State) (r : Search) :
      Answer i s (.next (u.setEngine (.searching r)))

section
variable {i : Instr} {s u : State}

theorem mayComplete_mem_of_fault (h : FaultState i s u) : mayComplete i .mem = true := by
  cases h with
  | read h => rcases h with ⟨_, rfl⟩ | ⟨_, rfl⟩ <;> rfl
  | preload h => rcases h with rfl | rfl <;> rfl
  | pastPreload h => rw [h]; rfl

theorem sticky_of_fault (h : FaultState i s u) : u.sticky = s.sticky := by cases h <;> rfl

theorem dag_of_fault (h : FaultState i s u) : u.dag = s.dag := by cases h <;> rfl

theorem found_of_fault (h : FaultState i s u) : u.found = s.found := by cases h <;> rfl

/-- Up to the fault a command has written no register outside its write set but STATUS (R277). -/
theorem readReg_of_fault (h : FaultState i s u) {r : Reg} (hr : writeSet i r = false) (hne : r ≠ .status) :
    u.readReg r = s.readReg r := by
  cases h with
  | read => rfl
  | preload =>
    cases r with
    | status => exact absurd rfl hne
    | _ => rfl
  | pastPreload h =>
    subst h
    cases r with
    | status => exact absurd rfl hne
    | cache j => cases hr
    | _ => rfl

/-- A faulted preload leaves CACHE_VALID clear (20_memory.md R80). -/
theorem cacheValid_of_preload_fault (h : FaultState i s u)
    (hi : i = .cacheLoad ∨ i = .hash ∧ s.preload = none) : u.cacheValid = false := by
  cases h with
  | read h =>
    obtain ⟨_, rfl⟩ | ⟨_, rfl⟩ := h
    all_goals rcases hi with h | ⟨h, -⟩ <;> cases h
  | preload => rfl
  | pastPreload h hp =>
    subst h
    rcases hi with h | ⟨-, h⟩
    · cases h
    · cases hp.symm.trans h

theorem requireDag_answer {run : Outcome} (hi : readsDag i = true) (h : Answer i s run) :
    Answer i s (requireDag s run) := by
  cases hok : s.dagCfgOK with
  | true => rwa [requireDag_ok hok]
  | false =>
    rw [requireDag_bad hok]
    exact .raised hi (by decide)

theorem requireCache_answer {run : Outcome} (hi : mayComplete i .noCache = true) (h : Answer i s run) :
    Answer i s (requireCache s run) := by
  cases hv : s.cacheValid with
  | true => rwa [requireCache_ok hv]
  | false =>
    rw [requireCache_bad hv]
    exact .raised hi (by decide)

theorem finishRes_answer (v : Word) : Answer i s (finishRes v s) := .ran (s.setRes v) rfl

theorem finishCtx_answer (c : Ctx) : Answer i s (finishCtx c s) := .ran (s.setCtx c) rfl

theorem finishDag_answer (c : Option Ctx) (hi : FaultState i s s) :
    Answer i s (finishDag (writeSet i) c s) := by
  cases c with
  | some c => exact finishCtx_answer c
  | none => exact .faulted hi

end

theorem execCacheLoad_answer (s : State) : Answer .cacheLoad s (execCacheLoad s) := by
  refine requireDag_answer rfl ?_
  cases s.preload with
  | some words => exact .ran (s.loadCache words) rfl
  | none => exact .faulted (.preload (.inl rfl))

theorem execHash_answer (s : State) : Answer .hash s (execHash s) := by
  refine requireDag_answer rfl ?_
  cases hp : s.preload with
  | none => exact .faulted (.preload (.inr rfl))
  | some words =>
    simp only [hashLoaded]
    split
    · exact .ran (((s.loadCache words).setCtx _).setRes _) rfl
    · exact .faulted (.pastPreload rfl hp)

theorem execSearch_answer (s : State) : Answer .search s (execSearch s) := by
  refine requireDag_answer rfl ?_
  cases s.preload with
  | some words => exact .searches rfl _ _
  | none => exact .searches rfl _ _

theorem execKeccakRound_answer (rnd : BitVec 5) (s : State) :
    Answer (.keccakRound rnd) s (execKeccakRound rnd s) := by
  rw [execKeccakRound]
  split
  · exact finishCtx_answer _
  · exact .raised rfl (by decide)

/-- Every command in every state answers (60_exceptions.md R270). -/
theorem exec_answer (i : Instr) (s : State) : Answer i s (exec i s) := by
  cases i with
  | nop => exact .ran s rfl
  | fnv1a | rotl | rotr | clz | popc | umulhi | rmath | rmerge | targetCmp => exact finishRes_answer _
  | kissSeed | keccakF800 | seedAbsorb | seedExtract | finalAbsorb | digestExtract =>
    exact finishCtx_answer _
  | mixFill | mixReduce | loopSeed | mathMix | mixUpdate | finalReduce => exact finishCtx_answer _
  | kissNext => exact .ran ((s.setRes _).setCtx _) rfl
  | keccakRound rnd => exact execKeccakRound_answer rnd s
  | cacheMix => exact requireCache_answer rfl (finishCtx_answer _)
  | dagMix arg => exact requireDag_answer rfl (finishDag_answer _ (.read (.inl ⟨arg, rfl⟩)))
  | loopIter arg =>
    exact requireDag_answer rfl (requireCache_answer rfl (finishDag_answer _ (.read (.inr ⟨arg, rfl⟩))))
  | cacheLoad => exact execCacheLoad_answer s
  | hash => exact execHash_answer s
  | search => exact execSearch_answer s

/-- Settles O49: each answer of `Answer` but a started SEARCH is a completion, with STICKY recorded
(`complete_eq`). -/
theorem everyCommandCompletes : Obligations.EveryCommandCompletes := by
  intro i s
  have h := exec_answer i s
  generalize exec i s = o at h ⊢
  cases h with
  | ran u h => exact ⟨_, rfl, .inl ⟨rfl, rfl, rfl, by rw [← h, ← record_eq]; rfl⟩⟩
  | raised he => exact ⟨_, rfl, .inl ⟨rfl, rfl, he, record_eq _ _⟩⟩
  | faulted hu =>
    refine ⟨_, rfl, .inl ⟨rfl, rfl, mayComplete_mem_of_fault hu, ?_⟩⟩
    rw [← sticky_of_fault hu]
    exact record_eq _ _
  | searches hi u r => exact ⟨_, rfl, .inr ⟨hi, r, rfl⟩⟩

/-! ### The checks before execution -/

/-- Every command that reads the DAG checks DagCfgOK first (60_exceptions.md R272, R275). -/
theorem exec_config {i : Instr} {s : State} (hi : readsDag i = true) (h : s.dagCfgOK = false) :
    exec i s = .next (s.complete .config) := by
  cases i with
  | cacheLoad | dagMix | loopIter | hash | search => exact requireDag_bad h
  | _ => cases hi

theorem exec_loopIter_noCache {s : State} (hok : s.dagCfgOK = true) (hv : s.cacheValid = false)
    (arg : BitVec 16) : exec (.loopIter arg) s = .next (s.complete .noCache) :=
  (requireDag_ok hok).trans (requireCache_bad hv)

/-- Settles O27: a failed check is a completion of the unchanged state. -/
theorem configErrorComesFirst : Obligations.ConfigErrorComesFirst := by
  refine fun i s hi => ⟨fun hbad => ?_, fun arg harg hok hv => ?_⟩
  · rw [exec_config hi hbad, complete_eq]
  · rw [harg, exec_loopIter_noCache hok hv, complete_eq]

/-- Settles O48: the step is the engine's (`step_engine`), which runs the decoded command or completes it with
E_ILLEGAL. -/
theorem stepRunsAcceptedCommand : Obligations.StepRunsAcceptedCommand := by
  intro s abort he hnext
  obtain ⟨choice, hstep⟩ := step_engine hnext
  rcases engineStep_cases choice (s.popInput s.inputs.tail) with
    ⟨hidle, -⟩ | ⟨_, i, -, hd, hrun⟩ | ⟨_, why, -, hd, hrun⟩ | ⟨r, hr, -⟩
  · cases he.symm.trans hidle
  · refine ⟨fun j hj => ?_, fun e he' => ?_⟩
    · cases hd.symm.trans hj
      exact hstep.trans hrun
    · cases hd.symm.trans he'
  · refine ⟨fun j hj => (by cases hd.symm.trans hj), fun _ _ => ?_⟩
    rw [hstep, hrun, complete_eq]
    rfl
  · cases he.symm.trans hr

/-! ### Commands run up to the first error -/

section
variable {s t : State}

theorem execUntilError_cons {i : Instr} (h : exec i s = .next t) (he : t.err = .none) (is : List Instr) :
    execUntilError (i :: is) s = execUntilError is t := by
  rw [execUntilError, h]
  exact if_pos he

theorem execUntilError_cons_error {i : Instr} (h : exec i s = .next t) (he : t.err ≠ .none)
    (is : List Instr) : execUntilError (i :: is) s = .next t := by
  rw [execUntilError, h]
  exact if_neg he

/-- What a nonempty run answers is what its first command answers, or what the others answer after it. -/
theorem execUntilError_cons_next {i : Instr} {is : List Instr} (h : execUntilError (i :: is) s = .next t) :
    ∃ u, exec i s = .next u ∧
      (u.err = .none ∧ execUntilError is u = .next t ∨ u.err ≠ .none ∧ u = t) := by
  rw [execUntilError] at h
  cases hu : exec i s with
  | next u =>
    simp only [hu] at h
    split at h
    · exact ⟨u, rfl, .inl ⟨‹_›, h⟩⟩
    · exact ⟨u, rfl, .inr ⟨‹_›, by cases h; rfl⟩⟩
  | fault _ => simp [hu] at h
  | refused _ => simp [hu] at h

/-- A run without an error, then another run. -/
theorem execUntilError_append {is : List Instr} (h : execUntilError is s = .next t) (ht : t.err = .none)
    (js : List Instr) : execUntilError (is ++ js) s = execUntilError js t := by
  induction is generalizing s with
  | nil =>
    cases h
    rfl
  | cons i is ih =>
    obtain ⟨u, hu, ⟨he, hrun⟩ | ⟨he, rfl⟩⟩ := execUntilError_cons_next h
    · rw [List.cons_append, execUntilError_cons hu he]
      exact ih hrun
    · exact absurd ht he

/-- A run that ends with an error is the end of every longer run. -/
theorem execUntilError_append_error {is : List Instr} (hs : s.err = .none)
    (h : execUntilError is s = .next t) (ht : t.err ≠ .none) (js : List Instr) :
    execUntilError (is ++ js) s = .next t := by
  induction is generalizing s with
  | nil =>
    cases h
    exact absurd hs ht
  | cons i is ih =>
    obtain ⟨u, hu, ⟨he, hrun⟩ | ⟨he, rfl⟩⟩ := execUntilError_cons_next h
    · rw [List.cons_append, execUntilError_cons hu he]
      exact ih he hrun
    · rw [List.cons_append, execUntilError_cons_error hu he]

end

/-- `t` has the outcome of a DAG fault met by a command run from `s` that leaves CACHE_VALID as it was: E_MEM,
recorded in STICKY (60_exceptions.md R274, R277). -/
def State.faultsTo (s t : State) : Prop :=
  t.err = .mem ∧ t.sticky = Code.record .mem s.sticky ∧ t.cacheValid = s.cacheValid

theorem err_ne_none_of_faultsTo {s t : State} (h : s.faultsTo t) : t.err ≠ .none := by
  simp [h.1]

theorem faultsTo_of_clobber (ws : Reg → Bool) (s : State) : s.faultsTo ((s.clobber ws).complete .mem) :=
  ⟨rfl, rfl, rfl⟩

/-- `o` is what a body of result `c` leaves of `s`: its context and E_NONE, or a DAG fault. -/
def Leaves (s : State) (o : Outcome) : Option Ctx → Prop
  | some c => o = .next (s.ranTo c)
  | none => ∃ t, o = .next t ∧ s.faultsTo t

/-- Commands `is`, run up to the first error in `s` after other commands, leave what `body` gives. -/
def RunsAs (s : State) (is : List Instr) (body : Ctx → Option Ctx) : Prop :=
  ∀ c, Leaves s (execUntilError is (s.ranTo c)) (body c)

section
variable {s : State} {is js : List Instr} {f g : Ctx → Option Ctx} {i : Instr}

theorem runsAs_nil (s : State) : RunsAs s [] some := fun _ => rfl

theorem runsAs_append (hf : RunsAs s is f) (hg : RunsAs s js g) : RunsAs s (is ++ js) (f · >>= g) := by
  intro c
  have h := hf c
  show Leaves s _ (f c >>= g)
  cases hc : f c with
  | some c' =>
    rw [hc] at h
    rw [execUntilError_append h rfl]
    exact hg c'
  | none =>
    rw [hc] at h
    obtain ⟨t, ht, hfault⟩ := h
    exact ⟨t, execUntilError_append_error rfl ht (err_ne_none_of_faultsTo hfault) js, hfault⟩

/-- One command that leaves what a body gives. -/
theorem runsAs_single (h : ∀ c, Leaves s (exec i (s.ranTo c)) (f c)) : RunsAs s [i] f := by
  intro c
  have h := h c
  cases hc : f c with
  | some c' =>
    rw [hc] at h
    exact execUntilError_cons h rfl []
  | none =>
    rw [hc] at h
    obtain ⟨t, ht, hfault⟩ := h
    exact ⟨t, execUntilError_cons_error ht (err_ne_none_of_faultsTo hfault) [], hfault⟩

/-- A command that always runs leaves its body's context. -/
theorem runsAs_total {body : Ctx → Ctx} (h : ∀ c, exec i (s.ranTo c) = .next (s.ranTo (body c))) :
    RunsAs s [i] (some ∘ body) := runsAs_single h

theorem runsAs_replicate {body : Ctx → Ctx} (h : RunsAs s [i] (some ∘ body)) (n : Nat) :
    RunsAs s (List.replicate n i) (some ∘ body^[n]) := by
  induction n with
  | zero => exact runsAs_nil s
  | succ n ih => exact runsAs_append h ih

theorem runsAs_map {α : Type} {cmd : α → Instr} {body : Ctx → α → Option Ctx}
    (h : ∀ a, RunsAs s [cmd a] (body · a)) (as : List α) : RunsAs s (as.map cmd) (as.foldlM body) := by
  induction as with
  | nil => exact runsAs_nil s
  | cons a as ih => exact runsAs_append (h a) ih

end

/-! ### LOOP_ITER and HASH as their commands -/

section
variable {s : State}

theorem exec_dagMix_leaves (hok : s.dagCfgOK = true) (arg : BitVec 16) (c : Ctx) :
    Leaves s (exec (.dagMix arg) (s.ranTo c)) (c.dagMix s.hashEnv arg) := by
  cases hc : c.dagMix s.hashEnv arg with
  | some c' => exact exec_dagMix (s := s.ranTo c) hok hc
  | none => exact ⟨_, exec_dagMix_fault (s := s.ranTo c) hok hc, faultsTo_of_clobber _ (s.ranTo c)⟩

/-- LOOP_ITER that takes a DAG fault (43_mix.md R198, 60_exceptions.md R277). -/
theorem exec_loopIter_fault (hok : s.dagCfgOK = true) (hv : s.cacheValid = true) {arg : BitVec 16}
    (hc : s.ctx.loopIter s.hashEnv arg = none) :
    exec (.loopIter arg) s = .next ((s.clobber (writeSet (.loopIter arg))).complete .mem) := by
  rw [exec, execLoopIter, requireDag_ok hok, requireCache_ok hv, hc]
  rfl

theorem exec_loopIter_leaves (hok : s.dagCfgOK = true) (hv : s.cacheValid = true) (arg : BitVec 16) :
    Leaves s (exec (.loopIter arg) s) (s.ctx.loopIter s.hashEnv arg) := by
  cases hc : s.ctx.loopIter s.hashEnv arg with
  | some c => exact exec_loopIter hok hv hc
  | none => exact ⟨_, exec_loopIter_fault hok hv hc, faultsTo_of_clobber _ s⟩

/-- LOOP_ITER's commands leave what its body gives, a DAG fault among it (43_mix.md R198). -/
theorem runsAs_loopCommands (hok : s.dagCfgOK = true) (hv : s.cacheValid = true) (arg : BitVec 16) :
    RunsAs s (loopCommands arg) (Ctx.loopIter s.hashEnv arg) := by
  have hseed := runsAs_append (runsAs_total fun c => exec_mixReduce (s.ranTo c))
    (runsAs_total fun c => exec_loopSeed (s.ranTo c) arg)
  have hcaches := runsAs_replicate (runsAs_total fun c => exec_cacheMix (s := s.ranTo c) hv) 11
  have hmaths := runsAs_replicate (runsAs_total fun c => exec_mathMix (s.ranTo c)) 18
  have hitems := runsAs_map (fun i => runsAs_single (exec_dagMix_leaves hok (BitVec.ofNat 16 i)))
    (List.range 64)
  have hupdate := runsAs_total fun c => exec_mixUpdate (s.ranTo c)
  have hrun := runsAs_append (runsAs_append (runsAs_append (runsAs_append hseed hcaches) hmaths) hitems)
    hupdate
  have hbody : Ctx.loopIter s.hashEnv arg = fun c =>
      (List.range 64).foldlM (fun c i => c.dagMix s.hashEnv (BitVec.ofNat 16 i))
        ((Ctx.mathMix s.params.kissCombine)^[18]
          ((Ctx.cacheMix s.params.kissCombine s.cache)^[11] (c.mixReduce.loopSeed arg))) >>=
        (some ∘ Ctx.mixUpdate) :=
    funext fun _ => Option.map_eq_bind
  rw [hbody]
  exact hrun

/-- HASH whose preload faults (44_search.md R233, 60_exceptions.md R277). -/
theorem exec_hash_preload_fault (hok : s.dagCfgOK = true) (hp : s.preload = none) :
    exec .hash s = .next ((s.dropCache.clobber (writeSet .hash)).complete .mem) := by
  rw [exec, execHash, requireDag_ok hok, hp]
  rfl

/-- HASH that takes a DAG fault past its preload (44_search.md R233, 60_exceptions.md R277). -/
theorem exec_hash_fault {words : Vector Word 4096} (hok : s.dagCfgOK = true)
    (hp : s.preload = some words)
    (hc : s.ctx.runHash (s.loadCache words).hashEnv s.header s.nonceLo s.nonceHi = none) :
    exec .hash s = .next (((s.loadCache words).clobber (writeSet .hash)).complete .mem) := by
  have hloaded : hashLoaded (s.loadCache words) = memFault (writeSet .hash) (s.loadCache words) := by
    simp only [hashLoaded, State.loadCache_ctx, State.loadCache_header, State.loadCache_nonceLo,
      State.loadCache_nonceHi, hc]
  rw [exec, execHash, requireDag_ok hok, hp]
  exact hloaded

/-- What the commands before the loop leave (44_search.md R232). -/
theorem runsAs_hashSetup (s : State) :
    RunsAs s [.seedAbsorb, .keccakF800, .seedExtract, .mixFill]
      (some ∘ Ctx.hashSetup s.hashEnv s.header s.nonceLo s.nonceHi) :=
  runsAs_append (runsAs_total fun c => exec_seedAbsorb (s.ranTo c))
    (runsAs_append (runsAs_total fun c => exec_keccakF800 (s.ranTo c))
      (runsAs_append (runsAs_total fun c => exec_seedExtract (s.ranTo c))
        (runsAs_total fun c => exec_mixFill (s.ranTo c))))

/-- What the loop iterations leave (44_search.md R232). -/
theorem runsAs_hashLoop (hok : s.dagCfgOK = true) (hv : s.cacheValid = true) :
    RunsAs s ((List.range 64).map fun j => .loopIter (BitVec.ofNat 16 j)) (Ctx.hashLoop s.hashEnv) :=
  runsAs_map (fun j => runsAs_single fun c =>
    exec_loopIter_leaves (s := s.ranTo c) hok hv (BitVec.ofNat 16 j)) _

/-- What the commands after the loop leave, but for TARGET_CMP (44_search.md R232). -/
theorem runsAs_hashFinish (s : State) :
    RunsAs s [.finalReduce, .finalAbsorb, .keccakF800, .digestExtract]
      (some ∘ Ctx.hashFinish s.hashEnv) :=
  runsAs_append (runsAs_total fun c => exec_finalReduce (s.ranTo c))
    (runsAs_append (runsAs_total fun c => exec_finalAbsorb (s.ranTo c))
      (runsAs_append (runsAs_total fun c => exec_keccakF800 (s.ranTo c))
        (runsAs_total fun c => exec_digestExtract (s.ranTo c))))

/-- Program P3's commands between CACHE_LOAD and TARGET_CMP (44_search.md R233). -/
def hashBodyCommands : List Instr :=
  [.seedAbsorb, .keccakF800, .seedExtract, .mixFill] ++
    (List.range 64).map (fun j => .loopIter (BitVec.ofNat 16 j)) ++
    [.finalReduce, .finalAbsorb, .keccakF800, .digestExtract]

theorem hashCommands_eq : hashCommands = .cacheLoad :: (hashBodyCommands ++ [.targetCmp]) := by
  simp [hashCommands, hashBodyCommands]

/-- They leave what a hash gives, a DAG fault among it (44_search.md R232). -/
theorem runsAs_hashBody (hok : s.dagCfgOK = true) (hv : s.cacheValid = true) :
    RunsAs s hashBodyCommands (Ctx.runHash s.hashEnv s.header s.nonceLo s.nonceHi) := by
  have hrun := runsAs_append (runsAs_append (runsAs_hashSetup s) (runsAs_hashLoop hok hv))
    (runsAs_hashFinish s)
  have hbody : Ctx.runHash s.hashEnv s.header s.nonceLo s.nonceHi = fun c =>
      (c.hashSetup s.hashEnv s.header s.nonceLo s.nonceHi).hashLoop s.hashEnv >>=
        (some ∘ Ctx.hashFinish s.hashEnv) :=
    funext fun c => (runHash_eq ..).trans Option.map_eq_bind
  rw [hbody]
  exact hrun

/-- `t` and `u` are complete alike: in ERR, which is E_NONE or E_MEM, in STICKY and in CACHE_VALID. -/
def SameOutcome (t u : State) : Prop :=
  (t.err = .none ∨ t.err = .mem) ∧ t.err = u.err ∧ t.sticky = u.sticky ∧ t.cacheValid = u.cacheValid

theorem sameOutcome_of_faultsTo {t u : State} (ht : s.faultsTo t) (hu : s.faultsTo u) :
    SameOutcome t u := by
  obtain ⟨hte, hts, htc⟩ := ht
  obtain ⟨hue, hus, huc⟩ := hu
  exact ⟨.inr hte, hte.trans hue.symm, hts.trans hus.symm, htc.trans huc.symm⟩

/-- HASH has the outcome of program P3's commands run up to the first error (44_search.md R233). -/
theorem exec_hash_sameOutcome (hok : s.dagCfgOK = true) :
    ∃ t u, exec .hash s = .next t ∧ execUntilError hashCommands s = .next u ∧ SameOutcome t u := by
  rw [hashCommands_eq]
  cases hp : s.preload with
  | none =>
    exact ⟨_, _, exec_hash_preload_fault hok hp,
      execUntilError_cons_error (exec_cacheLoad_fault hok hp) nofun _, .inr rfl, rfl, rfl, rfl⟩
  | some words =>
    have hload : exec .cacheLoad s = .next ((s.loadCache words).ranTo s.ctx) :=
      (exec_cacheLoad hok hp).trans (congrArg Host.Outcome.next (complete_none_eq _))
    rw [execUntilError_cons hload rfl]
    have hrun := runsAs_hashBody (s := s.loadCache words) hok rfl s.ctx
    simp only [State.loadCache_header, State.loadCache_nonceLo, State.loadCache_nonceHi] at hrun
    cases hc : s.ctx.runHash (s.loadCache words).hashEnv s.header s.nonceLo s.nonceHi with
    | some c =>
      rw [hc] at hrun
      rw [execUntilError_append hrun rfl, execUntilError_cons (exec_targetCmp _) rfl]
      exact ⟨_, _, exec_hash hok hp hc, rfl, .inl rfl, rfl, rfl, rfl⟩
    | none =>
      rw [hc] at hrun
      obtain ⟨u, hu, hfault⟩ := hrun
      rw [execUntilError_append_error rfl hu (err_ne_none_of_faultsTo hfault)]
      exact ⟨_, u, exec_hash_fault hok hp hc, rfl,
        sameOutcome_of_faultsTo (faultsTo_of_clobber _ (s.loadCache words)) hfault⟩

/-- LOOP_ITER's commands begin with MIX_REDUCE, which leaves the same from `s` and from `s` after another
command. -/
theorem execUntilError_loopCommands_ranTo (arg : BitVec 16) :
    execUntilError (loopCommands arg) (s.ranTo s.ctx) = execUntilError (loopCommands arg) s :=
  (execUntilError_cons (exec_mixReduce _) rfl _).trans (execUntilError_cons (exec_mixReduce s) rfl _).symm

/-- LOOP_ITER has the outcome of its commands run up to the first error (43_mix.md R198). -/
theorem exec_loopIter_sameOutcome (hok : s.dagCfgOK = true) (hv : s.cacheValid = true)
    (arg : BitVec 16) : ∃ t u, exec (.loopIter arg) s = .next t ∧
      execUntilError (loopCommands arg) s = .next u ∧ SameOutcome t u ∧ t.cacheValid = s.cacheValid := by
  have hexec := exec_loopIter_leaves hok hv arg
  have hrun := runsAs_loopCommands hok hv arg s.ctx
  rw [execUntilError_loopCommands_ranTo] at hrun
  cases hc : s.ctx.loopIter s.hashEnv arg with
  | some c =>
    rw [hc] at hexec hrun
    exact ⟨_, _, hexec, hrun, ⟨.inl rfl, rfl, rfl, rfl⟩, rfl⟩
  | none =>
    rw [hc] at hexec hrun
    obtain ⟨t, ht, hfault⟩ := hexec
    obtain ⟨u, hu, hfault'⟩ := hrun
    exact ⟨t, u, ht, hu, sameOutcome_of_faultsTo hfault hfault', hfault.2.2⟩

end

/-! ### E_MEM -/

theorem readReg_complete (e : Code) (s : State) {r : Reg} (h : r ≠ .status) :
    (s.complete e).readReg r = s.readReg r := by
  cases r with
  | status => exact absurd rfl h
  | _ => rfl

/-- A command that completes with E_MEM at once met a DAG fault (60_exceptions.md R272, R277). -/
theorem faulted_of_mem {i : Instr} {s t : State} (h : exec i s = .next t) (he : t.err = .mem)
    (hidle : t.engine = .idle) :
    ∃ u, FaultState i s u ∧ t = (u.clobber (writeSet i)).complete .mem := by
  have ha := exec_answer i s
  rw [h] at ha
  cases ha with
  | ran => cases he
  | raised _ hm => exact absurd he hm
  | faulted hu => exact ⟨_, hu, rfl⟩
  | searches => cases hidle

/-- Settles O34: what a DAG fault keeps (`faulted_of_mem`, `readReg_clobber`), HASH's preload on a faulting byte,
and HASH and LOOP_ITER beside their commands. -/
theorem dagFaultEndsCommandKeepingOthers : Obligations.DagFaultEndsCommandKeepingOthers := by
  refine ⟨fun i s t h he hidle _ _ => ?_, fun s x hok hlo hhi hx => ?_, fun s hok => ?_,
    fun arg s hok hv => ?_⟩
  · obtain ⟨u, hu, rfl⟩ := faulted_of_mem h he hidle
    refine ⟨fun r hr hne => ?_, (dag_of_fault hu :), (found_of_fault hu :), rfl,
      (cacheValid_of_preload_fault hu :)⟩
    rw [readReg_complete _ _ hne, readReg_clobber hr, readReg_of_fault hu hr hne]
  · exact ⟨_, exec_hash_preload_fault hok (preload_faulting hlo hhi hx), rfl, rfl, rfl, rfl,
      record_eq _ _⟩
  · exact exec_hash_sameOutcome hok
  · obtain ⟨t, u, ht, hu, ⟨hcode, herr, hsticky, -⟩, hvalid⟩ := exec_loopIter_sameOutcome hok hv arg
    exact ⟨t, u, ht, hu, hcode, herr, hsticky, hvalid.trans hv⟩

end Sys2Proof.Machine
end

section
/-! PROOFS. The state after reset: its invariants, its registers, and the reset event at any time
(70_reset_and_hazards.md R300, R301). -/

namespace Sys2Proof.Machine

/-! ### The invariants while the engine is idle -/

/-- With no SEARCH running, well-formedness asks for DAGMEM's canonical form alone. -/
theorem wf_of_idle {s : State} (hdag : s.dag.wf = true) (he : s.engine = .idle) : s.wf :=
  ⟨hdag, fun r hr => by cases he.symm.trans hr⟩

/-- With no SEARCH running, there is no result slot to be sound. -/
theorem resultSound_of_idle {s : State} (he : s.engine = .idle) : s.resultSound :=
  fun r hr => by cases he.symm.trans hr

/-- Settles O51: the engine is idle after reset, and the empty DAGMEM image is canonical. -/
theorem resetWellFormedAndSound : Obligations.ResetWellFormedAndSound :=
  ⟨wf_of_idle Memory.wf_nil rfl, resultSound_of_idle rfl⟩

/-! ### The registers after reset -/

/-- The registers of R301: ID's constant, every other one 0; PARAM and CACHE are not fixed by it. -/
theorem readReg_reset {r : Reg} (hparam : r ≠ .param) (hcache : r.isCache = false) :
    State.reset.readReg r = if r = .id then 0x4B415750 else 0 := by
  cases r with
  | param => exact absurd rfl hparam
  | cache j => cases hcache
  | header i | target i | rhash i | rmix i | ks i | skw i | fm i | dg i | mx i =>
    exact Vector.getElem_replicate i.isLt
  | lm l q => simp [State.readReg, State.reset, Ctx.zero]
  | _ => rfl

/-- A reset block's registers hold what `State.reset`'s do; PARAM and CACHE are the block's own. -/
theorem readReg_resetBlock (s : State) {r : Reg} (hparam : r ≠ .param) (hcache : r.isCache = false) :
    s.resetBlock.readReg r = State.reset.readReg r := by
  cases r with
  | param => exact absurd rfl hparam
  | cache j => cases hcache
  | _ => rfl

/-! ### The reset event -/

theorem step_reset {s : State} {rest : List Event} (h : s.inputs = .reset :: rest) :
    step s = .next (s.popInput rest).resetBlock := step_of_cons h

/-- Settles O60, by the registers of `State.reset` and of a reset block; PARAM is read from the parameters,
which the event keeps (`paramWord_toNat`). -/
theorem resetGivesStatedRegisters : Obligations.ResetGivesStatedRegisters := by
  refine ⟨rfl, fun r => readReg_reset, fun s rest h => ⟨_, step_reset h, rfl, rfl, rfl, rfl,
    fun r => readReg_resetBlock _, ?_⟩⟩
  exact paramWord_toNat s.params

end Sys2Proof.Machine
end
